-- ==== Sys2Proof/Word.lean ====
section
/-! DEFINITION. The plainest words of the block: octets of a frame and the clock's count of microseconds. -/

namespace Sys2Proof

/-- One octet of a frame on the tunnel line (R138) or of a sensor transaction (R123). -/
abbrev Octet := BitVec 8

/-- One whole frame as octets: header, body and CRC (R138). -/
abbrev Octets := List Octet

/-- A moment, or a span of time, in microseconds.  Every time the handbook gives is a whole number
of microseconds: the shortest bit time is 2 µs (R149). -/
abbrev Time := Nat

end Sys2Proof
end

