-- ==== Sys2Proof/Syntax.lean ====
section
/-! DEFINITION. The commands and events of the block: one constructor of `Instr` for each row of
spec/opcode_table.json, with the operands its rule speaks of. -/

namespace Sys2Proof

/-- The four fan positions of a niche (R60 to R63). -/
inductive SlotNo where
  | fs1 | fs2 | fs3 | fs4
  deriving DecidableEq, Repr

/-- The three sensors of a polling round (R123). -/
inductive Sensor where
  | heat | opacity | velocity
  deriving DecidableEq, Repr

/-- The five discrete inputs (R133, R134, R136). -/
inductive Input where
  | manualAlarm | pushA | pushB | standDown | maint
  deriving DecidableEq, Repr

/-- The three feedback inputs of one slot (R61). -/
inductive SlotInput where
  | runFb | tripFb | dirFb
  deriving DecidableEq, Repr

/-- The three command lamps (R162). -/
inductive Lamp where
  | accept | refused | conflict
  deriving DecidableEq, Repr

/-- The seven health flags that have a 60 s hold timer (R145).  The eighth, LOCKOUT_PRESENT, has
none: it is a level. -/
inductive TimedFlag where
  | rxOverrun | lineErrors | txCongested | sensorInvalid | directionConflict | incidentOverflow
  | duplicateIndex
  deriving DecidableEq, Repr

/-- An incident's identity, origin/seq (R1): the declaring station and a seq of 0 to 15. -/
structure Id where
  origin : Nat
  seq : BitVec 4
  deriving DecidableEq, Repr

/-- The commands and events of the part, one for each row of spec/opcode_table.json.
An event that waits for a timer names the timer where the part has several of the kind. -/
inductive Instr where
  /-- POWER_ON_RESET (R168). -/
  | powerOnReset
  /-- EXTERNAL_RESET (R168): nRESET is asserted. -/
  | externalReset
  /-- RESET_RELEASE (R165): the levels of ST0 to ST27 at the release, ST0 in bit 0, an open pin 1. -/
  | resetRelease (straps : BitVec 28)
  /-- JOIN_TIMER_EXPIRY (R170). -/
  | joinTimerExpiry
  /-- SENSOR_ROUND (R123). -/
  | sensorRound
  /-- SENSOR_SAMPLE (R124): the transaction in progress ends with these three octets. -/
  | sensorSample (high low check : Octet)
  /-- INPUT_LEVEL_CHANGE (R133): the input pin comes to this level. -/
  | inputLevelChange (i : Input) (asserted : Bool)
  /-- DEBOUNCE_EXPIRY (R133). -/
  | debounceExpiry (i : Input)
  /-- MAINTENANCE_ENTRY (R84). -/
  | maintenanceEntry
  /-- SLOT_INPUT_CHANGE (R61): the slot's feedback pin comes to this level. -/
  | slotInputChange (k : SlotNo) (i : SlotInput) (asserted : Bool)
  /-- SLOT_INPUT_FILTER_EXPIRY (R61). -/
  | slotInputFilterExpiry (k : SlotNo) (i : SlotInput)
  /-- SLOT_INPUT_INITIAL_LEVELS (R61). -/
  | slotInputInitialLevels
  /-- START_TIMER_EXPIRY (R69). -/
  | startTimerExpiry (k : SlotNo)
  /-- COAST_TIMER_EXPIRY (R74). -/
  | coastTimerExpiry (k : SlotNo)
  /-- TRIP_HOLD_EXPIRY (R78). -/
  | tripHoldExpiry (k : SlotNo)
  /-- PACE_UPDATE (R42). -/
  | paceUpdate
  /-- CHANGE_TIMER_EXPIRY (R45). -/
  | changeTimerExpiry
  /-- YIELD_HOLD_EXPIRY (R51): the yield hold of this record's demand part. -/
  | yieldHoldExpiry (id : Id)
  /-- INCIDENT_RECEIVED (R15): Frame Dispatch takes the INCIDENT at the head of the receive queue. -/
  | incidentReceived
  /-- END_RECEIVED (R22). -/
  | endReceived
  /-- REANNOUNCE (R26): the defer, or the rate wait, of this id. -/
  | reannounce (id : Id)
  /-- END_REPEAT (R21): a stand-down repeat due for this id. -/
  | endRepeat (id : Id)
  /-- ENDING_TIMER_EXPIRY (R23): the ending timer of this record. -/
  | endingTimerExpiry (id : Id)
  /-- STATUS_RECEIVED (R115). -/
  | statusReceived
  /-- PEER_SILENT (R112): the age of this peer reaches four presence periods. -/
  | peerSilent (p : Nat)
  /-- CLAIM_RECEIVED (R94). -/
  | claimReceived
  /-- WITHDRAW_RECEIVED (R95). -/
  | withdrawReceived
  /-- RELEASE_RECEIVED (R95). -/
  | releaseReceived
  /-- INVALID_FRAME_TAKEN (R147). -/
  | invalidFrameTaken
  /-- CLAIM_PLACEMENT (R99). -/
  | claimPlacement
  /-- CLAIM_SPACING_EXPIRY (R98). -/
  | claimSpacingExpiry
  /-- SETTLE_EXPIRY (R100). -/
  | settleExpiry
  /-- CLAIM_RENEWAL (R102). -/
  | claimRenewal
  /-- CLAIM_ENTRY_EXPIRY (R96): the entry of this station. -/
  | claimEntryExpiry (station : Nat)
  /-- PRESENCE_TIMER_EXPIRY (R143). -/
  | presenceTimerExpiry
  /-- STATUS_SPACING_EXPIRY (R144). -/
  | statusSpacingExpiry
  /-- HEALTH_FLAG_EXPIRY (R145). -/
  | healthFlagExpiry (f : TimedFlag)
  /-- SEND_START (R154). -/
  | sendStart
  /-- SEND_SUCCESS (R155). -/
  | sendSuccess
  /-- COLLISION (R156): character `k` of the frame being sent reads back as these ten bits, bit 0 the
  start bit. -/
  | collision (k : Nat) (readBack : BitVec 10)
  /-- RECEIVER_SYNC (R150). -/
  | receiverSync
  /-- FRAME_ARRIVAL (R150): this octet is the last CRC octet of the frame in assembly. -/
  | frameArrival (o : Octet)
  /-- RX_FRAME_DISCARD (R150): this character, with this stop bit, discards the frame in assembly. -/
  | rxFrameDiscard (o : Octet) (stop : Bool)
  /-- RX_TRUNCATION (R150). -/
  | rxTruncation
  /-- CMD_LAMP_EXPIRY (R162). -/
  | cmdLampExpiry (l : Lamp)
  /-- SLOT_FLT_PHASE (R163). -/
  | slotFltPhase (k : SlotNo)
  /-- CHARACTER_RECEIVED (R150): a character of another station, with its stop bit. -/
  | characterReceived (o : Octet) (stop : Bool)
  deriving DecidableEq, Repr

end Sys2Proof
end

