-- ==== Sys2Proof/Decode.lean ====
section
/-! DEFINITION. The command a word of spec/opcode_table.json's bits spells.  The table of this block
gives no row any bits (every row's "fields" is empty and no row is "fixed"), so no word spells a
command. -/

namespace Sys2Proof

/-- The command spelt by the word `w` of `nbits` bits: none, since no row of the table gives bits. -/
def decodeTableWord (_nbits _w : Nat) : Option Instr := none

end Sys2Proof
end

