-- ==== Sys2Proof/Config.lean ====
section
/-! DEFINITION. What the handbook leaves open: the block's free values. -/

namespace Sys2Proof

/-- FREE VALUE (log 3).  R4 says that over a long run of seqs of one origin the key comparison is
not transitive, so a set of ids may have no lowest and no highest key, and then no rule says which
of them a choice "by key" takes.  The position taken is this constant applied to the ids in
contention (origin, seq); it has no body, so nothing can be proved of it. -/
opaque Config.cycleChoice : List (Nat × Nat) → Nat

/-- FREE VALUE (log 39).  The level the selected sensor presents on SNS_DI at this microsecond of the model's
clock: what the sensors send comes from outside the part, so it has no body and nothing can be proved of it. -/
opaque Config.sensorLine : Nat → Bool

end Sys2Proof
end

