-- ==== Sys2Proof/Machine/State.lean ====
section
/-! DEFINITION. The state of the KJD-412, block by block as the handbook divides it, the reasons a
step can stop, and the state after a power-on reset.

A timer is held as `Option Time`: `none` is a stopped timer, `some t` one that runs and expires when
the clock reaches `t`.  A time since an event (an age) is held as the clock's reading at the event. -/

namespace Sys2Proof.Machine

/-! ## Names shared by the blocks -/

/-- A direction along the bore (handbook, Conventions). -/
inductive Direction where
  | towardA | towardB
  deriving DecidableEq, Repr

/-- The station mode (R168). -/
inductive Mode where
  | joining | quiet | incident | maintenance | configFault
  deriving DecidableEq, Repr

/-- A slot target (R32, R62). -/
inductive Target where
  | off
  | run (d : Direction)
  deriving DecidableEq, Repr

/-- The pace states (R40). -/
inductive Pace where
  | notPace | pace | holding
  deriving DecidableEq, Repr

/-- One of each thing the four slots have, FS1 to FS4. -/
structure Quad (α : Type) where
  one : α
  two : α
  three : α
  four : α
  deriving DecidableEq, Repr

/-! ## Incident Unit -/

/-- What an ACTIVE record says of its incident (R1).  `cmd` is the commanding station of a COMMANDED
direction and `none` for a COMPUTED one, so it holds the direction source too. -/
structure Content where
  lo : Nat
  hi : Nat
  dir : Direction
  rev : Nat
  cmd : Option Nat
  deriving DecidableEq, Repr

/-- The demand part of an ACTIVE record (R31). -/
structure Demand where
  d : Nat
  serial : BitVec 8
  source : Nat
  yieldDue : Option Time
  deriving DecidableEq, Repr

/-- The state of a record with the fields that state holds (R1).  `order` numbers the events that end
records, so that eviction can tell which ended longest ago (R3). -/
inductive RecState where
  | active (c : Content) (demand : Option Demand)
  | absorbed (survivor : Id)
  | ended (order : Nat) (due : Time)
  deriving DecidableEq, Repr

/-- One record of the incident list (R1). -/
structure Rec where
  id : Id
  st : RecState
  deriving DecidableEq, Repr

/-- A time held for an id: a pending re-announce or END repeat with the moment it is due, or the
moment the last bulletin for the id was placed. -/
structure IdTime where
  id : Id
  time : Time
  deriving DecidableEq, Repr

/-- The Incident Unit (chapter 1). -/
structure Iu where
  /-- The incident list, at most 6 records (R3). -/
  records : List Rec
  /-- The origin sequence counter (R5). -/
  counter : BitVec 4
  /-- Pending re-announces with the end of the defer or of the rate wait (R26). -/
  reannounce : List IdTime
  /-- When the last INCIDENT for an id was placed, for the rate of R26. -/
  incidentSent : List IdTime
  /-- When the last END answer or stand-down END for an id was placed, for the rate of R27. -/
  endSent : List IdTime
  /-- END repeats due (R21). -/
  endRepeats : List IdTime
  /-- An alarm event held in JOINING (R10). -/
  heldAlarm : Bool
  /-- How many events have ended records since reset: the model's own, for R3's order. -/
  endings : Nat
  deriving DecidableEq, Repr

/-! ## Thrust Planner -/

/-- The Thrust Planner's own items (R32); the demand parts stand in the incident records. -/
structure Tp where
  targets : Quad Target
  pace : Pace
  updateDue : Option Time
  changeDue : Option Time
  /-- The station's class and rank while it is eligible (R38). -/
  classRank : Option (Nat × Nat)
  deriving DecidableEq, Repr

/-! ## Fan Slots -/

/-- The lockout causes (R62). -/
inductive LockCause where
  | startFail | trip | stuck
  deriving DecidableEq, Repr

/-- The slot states, each with the timer it holds (R62).  TRIPPED holds `none` once its hold has
expired. -/
inductive SlotState where
  | stopped
  | startWait (d : Direction)
  | starting (d : Direction) (due : Time)
  | running (d : Direction)
  | coasting (due : Time)
  | tripped (hold : Option Time)
  | lockedOut (cause : LockCause)
  | localControl
  | absent
  deriving DecidableEq, Repr

/-- A filtered feedback input of a slot (R61): the pin, the level taken from it, the level the pin
showed at reset release, and the 100 ms filter. -/
structure SlotPin where
  pin : Bool
  level : Bool
  start : Bool
  due : Option Time
  deriving DecidableEq, Repr

/-- One slot (R62).  `kept` is the lockout an ABSENT slot keeps unseen (R87). -/
structure Slot where
  st : SlotState
  target : Target
  faults : Nat
  kept : Option LockCause
  runFb : SlotPin
  tripFb : SlotPin
  dirFb : SlotPin
  deriving DecidableEq, Repr

/-- The Fan Slots (chapter 3). -/
structure Fs where
  slots : Quad Slot
  /-- A maintenance entry is pending (R83). -/
  maintPending : Bool
  /-- The starting levels are taken at this moment, 100 ms after reset release (R61). -/
  initDue : Option Time
  deriving DecidableEq, Repr

/-! ## Claim Unit -/

/-- A claim key (R90). -/
structure Key where
  cls : Nat
  rank : Nat
  serial : BitVec 32
  deriving DecidableEq, Repr

/-- A claim: its slot, number and key (R91). -/
structure Claim where
  slot : SlotNo
  number : BitVec 8
  key : Key
  deriving DecidableEq, Repr

/-- The own claim (R91).  SETTLING holds its settle timer once the CLAIM has been sent; GRANTED holds
its renewal timer until that expires. -/
inductive OwnClaim where
  | none
  | settling (c : Claim) (settleDue : Option Time)
  | granted (c : Claim) (renewalDue : Option Time)
  deriving DecidableEq, Repr

/-- One entry of the claim view (R93).  `late` is the phase LATE; otherwise the entry is EARLY. -/
structure ClaimEntry where
  station : Nat
  claim : Claim
  heardAt : Time
  late : Bool
  deriving DecidableEq, Repr

/-- The Claim Unit (chapter 4).  The view stands in the order the entries were last heard, the one
heard longest ago first. -/
structure Cu where
  counter : BitVec 8
  own : OwnClaim
  view : List ClaimEntry
  spacingDue : Option Time
  deriving DecidableEq, Repr

/-! ## Peer Table -/

/-- The fields of a status part that the planner reads (R107). -/
structure View where
  mode : Mode
  fans : Nat
  runA : Nat
  runB : Nat
  temp : Option Int
  vel : Option Int
  deriving DecidableEq, Repr

/-- A governing block (R107, R140). -/
structure GovBlock where
  id : Id
  digest : BitVec 16
  demand : Nat
  serial : BitVec 8
  pace : Bool
  deriving DecidableEq, Repr

/-- The states a list entry names (R140). -/
inductive EntryState where
  | active | absorbed | ended
  deriving DecidableEq, Repr

/-- A list entry (R30, R140). -/
structure Entry where
  id : Id
  state : EntryState
  deriving DecidableEq, Repr

/-- A status part (R107). -/
structure StatusPart where
  view : View
  gov : Option GovBlock
  entries : List Entry
  deriving DecidableEq, Repr

/-- The liveness of a record, with the moment a LIVE peer was last heard (R107, R109). -/
inductive Liveness where
  | unknown
  | live (heardAt : Time)
  | silent
  deriving DecidableEq, Repr

/-- A peer's record (R107). -/
structure Peer where
  index : Nat
  liveness : Liveness
  status : Option StatusPart
  stale : Bool
  deriving DecidableEq, Repr

/-! ## Sensing Unit -/

/-- A held reading, `none` when INVALID, and its count of consecutive missing samples (R126). -/
structure Reading where
  value : Option Int
  missing : Nat
  deriving DecidableEq, Repr

/-- A discrete input: its pin, its debounced level and its 1 s debounce (R133). -/
structure Debounced where
  pin : Bool
  level : Bool
  due : Option Time
  deriving DecidableEq, Repr

/-- The heat alarm (R130); ALARMED holds its re-arm count (R131). -/
inductive HeatAlarm where
  | armed
  | alarmed (cool : Nat)
  deriving DecidableEq, Repr

/-- A sensor transaction in progress: the sensor selected and the moment it ends (R123). -/
structure Transaction where
  sensor : Sensor
  ends : Time
  deriving DecidableEq, Repr

/-- The Sensing Unit (chapter 6). -/
structure Su where
  heat : Reading
  opacity : Reading
  velocity : Reading
  /-- The last 11 temperature samples, the youngest first (R129). -/
  history : List (Option Int)
  alarm : HeatAlarm
  transaction : Option Transaction
  roundDue : Option Time
  manualAlarm : Debounced
  pushA : Debounced
  pushB : Debounced
  standDown : Debounced
  maint : Debounced
  deriving DecidableEq, Repr

/-! ## Line Interface and Bulletin Assembly -/

/-- The body of a bulletin the part sends (R140 to R142). -/
inductive Body where
  | status (serial : BitVec 32) (part : StatusPart) (health : BitVec 8)
  /-- An INCIDENT; with a survivor it is an ABSORBED notice. -/
  | incident (id : Id) (survivor : Option Id) (c : Content)
  | ending (id : Id)
  | claim (sect : Nat) (c : Claim)
  | withdraw (sect : Nat) (slot : SlotNo) (number : BitVec 8)
  | release (sect : Nat) (slot : SlotNo) (number : BitVec 8)
  deriving DecidableEq, Repr

/-- A frame of the transmit queue with its attempt count (R152). -/
structure TxFrame where
  body : Body
  attempts : Nat
  deriving DecidableEq, Repr

/-- The frame being sent and the moment its first start bit went out (R152, R155). -/
structure Sending where
  frame : TxFrame
  since : Time
  deriving DecidableEq, Repr

/-- The Line Interface (chapter 8). -/
structure Li where
  /-- The transmit queue in the order of sending: class by class, within a class in order (R152). -/
  tx : List TxFrame
  sending : Option Sending
  /-- The receive queue, the head first (R151). -/
  rx : List Octets
  /-- The receiver is synchronised (R150). -/
  synced : Bool
  /-- The octets of the frame in assembly (R150). -/
  assembly : Octets
  /-- The end of the last stop bit, from which idle time is counted (R154). -/
  idleSince : Time
  deriving DecidableEq, Repr

/-- Bulletin Assembly's three items (R143). -/
structure Ba where
  presenceDue : Option Time
  spacingDue : Option Time
  early : Bool
  deriving DecidableEq, Repr

/-- The hold timers of the seven timed health flags (R145). -/
structure Health where
  rxOverrun : Option Time
  lineErrors : Option Time
  txCongested : Option Time
  sensorInvalid : Option Time
  directionConflict : Option Time
  incidentOverflow : Option Time
  duplicateIndex : Option Time
  deriving DecidableEq, Repr

/-! ## Niche Outputs -/

/-- CMD_CONFLICT: lit or dark, and its minimum timer (R162).  Lit is the held command conflict (R20); its
output shows it from the first command after JOINING on (R164). -/
structure ConflictLamp where
  lit : Bool
  due : Option Time
  deriving DecidableEq, Repr

/-- A slot fault output: lit or dark, and its phase timer (R163). -/
structure Flash where
  lit : Bool
  due : Option Time
  deriving DecidableEq, Repr

/-- Niche Outputs' own state (R162, R163).  CMD_ACCEPT and CMD_REFUSED are lit while their timers run. -/
structure No where
  /-- A command has been taken since JOINING: until then the outputs of the command lamps stay dark (R164). -/
  commanded : Bool
  acceptDue : Option Time
  refusedDue : Option Time
  conflict : ConflictLamp
  flash : Quad Flash
  deriving DecidableEq, Repr

/-! ## Strap Latch and Join -/

/-- Strap Latch and Join (chapter 10).  `held` is the reset itself: the part is held in power-on or
external reset. -/
structure Sj where
  held : Bool
  straps : BitVec 28
  serial : BitVec 32
  mode : Mode
  joinDue : Option Time
  deriving DecidableEq, Repr

/-! ## The whole part -/

/-- The state of the part.  `pending` is the queue of commands that wait, first in, first out; `now`
is the clock in microseconds (the model's own, log 1). -/
structure State where
  pending : List Instr
  now : Time
  sj : Sj
  iu : Iu
  tp : Tp
  fs : Fs
  cu : Cu
  /-- The Peer Table (R107), by rising index; an unlisted peer is UNKNOWN. -/
  pt : List Peer
  su : Su
  li : Li
  ba : Ba
  health : Health
  no : No
  deriving DecidableEq, Repr

/-- The reasons a command stops the block: none.  The handbook gives every event an effect, or none
at all (R171: no command, frame, input or timer stops the part), so no constructor is needed and
none is raised: safe, since nothing is cut short. -/
inductive Fault where
  deriving DecidableEq, Repr

/-- The reasons a command is refused. -/
inductive Refusal where
  /-- Raised by `exec` for a row of the table that has no meaning yet; no arm of this model raises it.
  Safe: a refused command proves nothing. -/
  | notModelled (mnemonic : String)
  deriving DecidableEq, Repr

/-! ## Reset -/

/-- An empty quad. -/
def Quad.all {α : Type} (a : α) : Quad α := ⟨a, a, a, a⟩

/-- A pin that reads not asserted, with nothing filtered. -/
def SlotPin.idle : SlotPin := ⟨false, false, false, none⟩

/-- An input that reads not asserted, with nothing debounced. -/
def Debounced.idle : Debounced := ⟨false, false, none⟩

/-- A reading after either reset (R126). -/
def Reading.invalid : Reading := ⟨none, 0⟩

/-- A slot while a power-on reset holds the part: no strap is latched, so no slot is fitted (log 6). -/
def Slot.unfitted : Slot := ⟨.absent, .off, 0, none, .idle, .idle, .idle⟩

/-- The part held in power-on reset, before RESET_RELEASE latches the straps: every block as its
chapter gives it after a power-on reset, every output released (R6, R32, R87, R91, R93, R108, R126,
R129, R130, R133, R143, R145, R151, R152, R164, R168).  The values the handbook does not give (the
strap word before the first latch, the factory serial, the mode in reset, the pins, the clock) are
those of log 5. -/
def State.reset : State where
  pending := []
  now := 0
  sj := { held := true, straps := 0xFFFFFFF#28, serial := 1#32, mode := .joining, joinDue := none }
  iu := { records := [], counter := 0#4, reannounce := [], incidentSent := [], endSent := [],
          endRepeats := [], heldAlarm := false, endings := 0 }
  tp := { targets := .all .off, pace := .notPace, updateDue := none, changeDue := none,
          classRank := none }
  fs := { slots := .all .unfitted, maintPending := false, initDue := none }
  cu := { counter := 0#8, own := .none, view := [], spacingDue := none }
  pt := []
  su := { heat := .invalid, opacity := .invalid, velocity := .invalid,
          history := List.replicate 11 none, alarm := .armed, transaction := none,
          roundDue := none, manualAlarm := .idle, pushA := .idle, pushB := .idle,
          standDown := .idle, maint := .idle }
  li := { tx := [], sending := none, rx := [], synced := false, assembly := [], idleSince := 0 }
  ba := { presenceDue := none, spacingDue := none, early := false }
  health := { rxOverrun := none, lineErrors := none, txCongested := none, sensorInvalid := none,
              directionConflict := none, incidentOverflow := none, duplicateIndex := none }
  no := { commanded := false, acceptDue := none, refusedDue := none, conflict := ⟨false, none⟩,
          flash := .all ⟨false, none⟩ }

end Sys2Proof.Machine
end

