-- ==== Sys2Proof/Machine/Times.lean ====
section
/-! DEFINITION. The times the handbook gives, in microseconds, and the capacities of its queues and
lists. -/

namespace Sys2Proof.Machine

/-- One millisecond. -/
def ms : Time := 1000

/-- One second. -/
def sec : Time := 1000000

/-- JOINING lasts 6 s from reset release (R169). -/
def joinTime : Time := 6 * sec
/-- A polling round starts every 1 s (R123). -/
def roundTime : Time := 1 * sec
/-- A transaction: 50 µs after the select, then 24 clock pulses at 100 kHz (R123). -/
def transactionTime : Time := 290
/-- The debounce of a discrete input (R133). -/
def debounceTime : Time := 1 * sec
/-- The filter of a slot input, and the wait for its starting level (R61). -/
def filterTime : Time := 100 * ms
/-- The start timer (R67). -/
def startTime : Time := 15 * sec
/-- The coast timer (R72). -/
def coastTime : Time := 45 * sec
/-- The trip hold (R76). -/
def tripHoldTime : Time := 120 * sec
/-- The update timer (R41). -/
def updateTime : Time := 5 * sec
/-- The change timer (R32). -/
def changeTime : Time := 30 * sec
/-- The yield hold (R50). -/
def yieldTime : Time := 30 * sec
/-- The ending timer of an ENDED record (R21). -/
def endingTime : Time := 60 * sec
/-- The first END repeat; the second comes as long again after it (R21). -/
def endRepeatTime : Time := 500 * ms
/-- The unit of the re-announce defer (R26). -/
def deferUnit : Time := 20 * ms
/-- The rate of INCIDENT bulletins for one id (R26) and of END answers (R27). -/
def rateTime : Time := 1 * sec
/-- The settle timer (R91). -/
def settleTime : Time := 300 * ms
/-- The claim spacing timer (R99). -/
def claimSpacingTime : Time := 1 * sec
/-- The renewal timer of a grant (R100). -/
def renewalTime : Time := 10 * sec
/-- The expiry of a claim view entry (R96). -/
def claimEntryTime : Time := 12 * sec
/-- The STATUS spacing timer (R143). -/
def statusSpacingTime : Time := 100 * ms
/-- The hold timer of a health flag (R145). -/
def healthTime : Time := 60 * sec
/-- The timer of a command lamp (R162). -/
def lampTime : Time := 2 * sec

/-- The presence period a station in this mode sends at, and its peers expect (R112, R143). -/
def presencePeriod : Mode → Time
  | .incident => 1 * sec
  | .joining | .quiet | .maintenance | .configFault => 2 * sec

/-- The incident list holds at most 6 records (R3). -/
def maxRecords : Nat := 6
/-- The claim view holds at most 16 entries (R93). -/
def maxClaims : Nat := 16
/-- The receive queue holds at most 16 frames (R151). -/
def maxRx : Nat := 16
/-- The transmit queue holds at most 10 frames (R152). -/
def maxTx : Nat := 10

end Sys2Proof.Machine
end

