-- ==== Sys2Proof/Machine/Operands.lean ====
section
/-! DEFINITION. The operand forms: the strap word's fields (R165), the frame and its CRC (R138, R139),
the octet layouts of the six bulletins both ways (R140 to R142), the sensor octets (R124, R125) and a
character on the line (R149). -/

namespace Sys2Proof.Machine

/-! ## The strap word -/

/-- The field of the strap word at pin `at0`, `w` pins wide, its lowest pin the least significant
bit (R165). -/
def strapField (straps : BitVec 28) (at0 w : Nat) : Nat := (straps.extractLsb' at0 w).toNat

/-- STATION, pins ST0 to ST6 (R165). -/
def strapStation (w : BitVec 28) : Nat := strapField w 0 7
/-- COUNT, pins ST7 to ST13 (R165). -/
def strapCount (w : BitVec 28) : Nat := strapField w 7 7
/-- SPACING in metres, pins ST14 to ST16 (R165). -/
def strapSpacing (w : BitVec 28) : Nat :=
  match strapField w 14 3 with
  | 0 => 60 | 1 => 80 | 2 => 100 | 3 => 120 | 4 => 150 | 5 => 200 | 6 => 250 | _ => 300
/-- FANS, pins ST17 to ST19, with 5, 6 and 7 taken as 4 (R165). -/
def strapFans (w : BitVec 28) : Nat := min (strapField w 17 3) 4
/-- SECTION, pins ST20 to ST23 (R165). -/
def strapSection (w : BitVec 28) : Nat := strapField w 20 4
/-- The VTARGET code, pins ST24 and ST25 (R165). -/
def strapVtarget (w : BitVec 28) : Nat := strapField w 24 2
/-- The RATE code, pins ST26 and ST27 (R165). -/
def strapRate (w : BitVec 28) : Nat := strapField w 26 2

/-- The strap check (R166). -/
def strapsValid (w : BitVec 28) : Bool :=
  1 ≤ strapStation w && strapStation w ≤ 120 && 2 ≤ strapCount w && strapCount w ≤ 120 &&
    strapStation w ≤ strapCount w && strapSection w != 0

/-- VT in 0.1 m/s (R39). -/
def targetVelocity (code : Nat) : Int := 25 + 5 * (code : Int)

/-- D_init in thrust quarters (R39). -/
def initialDemand (code : Nat) : Nat := 4 * (code + 4)

/-- The bit time in microseconds at this RATE code (R149). -/
def bitTime (code : Nat) : Time :=
  match code with
  | 0 => 16 | 1 => 8 | 2 => 4 | _ => 2

/-- The octet at position `i`, 0 where there is none. -/
def octetAt (b : Octets) (i : Nat) : Octet := b.getD i 0#8

/-- The octet at position `i` as a number. -/
def natAt (b : Octets) (i : Nat) : Nat := (octetAt b i).toNat

/-! ## CRC and digest -/

/-- One shift of the CRC register (R139). -/
def crcShift (r : BitVec 16) : BitVec 16 :=
  if r.getLsbD 15 then (r <<< 1) ^^^ 0x1021#16 else r <<< 1

/-- `n` shifts of the CRC register. -/
def crcShifts : Nat → BitVec 16 → BitVec 16
  | 0, r => r
  | n + 1, r => crcShifts n (crcShift r)

/-- The CRC register takes one octet (R139). -/
def crcOctet (r : BitVec 16) (o : Octet) : BitVec 16 := crcShifts 8 (r ^^^ (o ++ 0#8))

/-- The CRC of a run of octets (R139). -/
def crc (b : Octets) : BitVec 16 := b.foldl crcOctet 0xFFFF#16

/-- A number of two octets, the high octet first (R138). -/
def octets16 (w : BitVec 16) : Octets := [w.extractLsb' 8 8, w.extractLsb' 0 8]

/-- A number of four octets, the high octet first (R138). -/
def octets32 (w : BitVec 32) : Octets :=
  [w.extractLsb' 24 8, w.extractLsb' 16 8, w.extractLsb' 8 8, w.extractLsb' 0 8]

/-- A small number as one octet. -/
def octet (n : Nat) : Octet := BitVec.ofNat 8 n

/-- The direction and source octet (R24, R141): bit 0 TOWARD_B, bit 1 COMMANDED. -/
def directionOctet (c : Content) : Octet :=
  octet ((match c.dir with | .towardA => 0 | .towardB => 1) + (if c.cmd.isSome then 2 else 0))

/-- The digest of a record (R24). -/
def digest (id : Id) (c : Content) : BitVec 16 :=
  crc [octet id.origin, octet id.seq.toNat, octet c.lo, octet c.hi, directionOctet c, octet c.rev,
    octet (c.cmd.getD 0)]

/-! ## Building a frame -/

/-- The slot number 1 to 4 (R142). -/
def slotOctet : SlotNo → Octet
  | .fs1 => 1#8 | .fs2 => 2#8 | .fs3 => 3#8 | .fs4 => 4#8

/-- The mode field (R140).  JOINING and CONFIG_FAULT are never sent. -/
def modeOctet : Mode → Octet
  | .quiet => 1#8 | .incident => 2#8 | .maintenance => 3#8 | .joining | .configFault => 0#8

/-- A list entry's state (R140). -/
def entryStateOctet : EntryState → Octet
  | .active => 1#8 | .absorbed => 2#8 | .ended => 3#8

/-- A held reading as sent, 0x8000 when INVALID (R140). -/
def readingWord : Option Int → BitVec 16
  | none => 0x8000#16
  | some v => BitVec.ofInt 16 v

/-- The governing block's seven octets (R140). -/
def govOctets (g : GovBlock) : Octets :=
  [octet g.id.origin, octet g.id.seq.toNat] ++ octets16 g.digest ++
    octets16 (BitVec.ofNat 16 g.demand) ++ [g.serial]

/-- A list entry's three octets (R140). -/
def entryOctets (e : Entry) : Octets :=
  [octet e.id.origin, octet e.id.seq.toNat, entryStateOctet e.state]

/-- Octet 12 of a STATUS: governing block present, pace flag, entry count (R140). -/
def statusFlags (p : StatusPart) : Octet :=
  octet ((match p.gov with | none => 0 | some g => 128 + (if g.pace then 64 else 0)) +
    p.entries.length)

/-- The STATUS body (R140). -/
def statusOctets (serial : BitVec 32) (p : StatusPart) (health : BitVec 8) : Octets :=
  octets32 serial ++
    [modeOctet p.view.mode, octet p.view.fans, octet (p.view.runA * 16 + p.view.runB)] ++
    octets16 (readingWord p.view.temp) ++ octets16 (readingWord p.view.vel) ++
    [health, statusFlags p] ++
    (match p.gov with | none => [] | some g => govOctets g) ++
    (p.entries.map entryOctets).flatten

/-- The INCIDENT body (R141). -/
def incidentOctets (id : Id) (survivor : Option Id) (c : Content) : Octets :=
  [octet id.origin, octet ((if survivor.isSome then 32 else 16) + id.seq.toNat), octet c.lo,
    octet c.hi, directionOctet c, octet c.rev, octet (c.cmd.getD 0),
    octet (match survivor with | none => 0 | some y => y.origin),
    octet (match survivor with | none => 0 | some y => y.seq.toNat)]

/-- The CLAIM body (R142). -/
def claimOctets (sect : Nat) (c : Claim) : Octets :=
  [octet sect, slotOctet c.slot, c.number, octet c.key.cls, octet c.key.rank] ++
    octets32 c.key.serial

/-- The body octets of a bulletin (R140 to R142). -/
def bodyOctets : Body → Octets
  | .status serial part health => statusOctets serial part health
  | .incident id survivor c => incidentOctets id survivor c
  | .ending id => [octet id.origin, octet id.seq.toNat]
  | .claim sect c => claimOctets sect c
  | .withdraw sect slot n => [octet sect, slotOctet slot, n]
  | .release sect slot n => [octet sect, slotOctet slot, n]

/-- The kind code (R138). -/
def kindCode : Body → Nat
  | .status _ _ _ => 1
  | .incident _ _ _ => 2
  | .ending _ => 3
  | .claim _ _ => 4
  | .withdraw _ _ _ => 5
  | .release _ _ _ => 6

/-- The header and body of a frame: kind and version 1, source, body length, body (R138). -/
def headerAndBody (source : Nat) (b : Body) : Octets :=
  [octet (kindCode b * 16 + 1), octet source, octet (bodyOctets b).length] ++ bodyOctets b

/-- The whole frame with its CRC (R138, R139). -/
def frameOctets (source : Nat) (b : Body) : Octets :=
  headerAndBody source b ++ octets16 (crc (headerAndBody source b))

/-! ## Reading a frame -/

/-- The body length a frame's header gives (R138). -/
def frameLength (f : Octets) : Nat := natAt f 2

/-- The body of a received frame. -/
def frameBody (f : Octets) : Octets := (f.drop 3).take (frameLength f)

/-- The source station (R138). -/
def frameSource (f : Octets) : Nat := natAt f 1

/-- Kind in bits 7 to 4 of octet 0 (R138). -/
def frameKind (f : Octets) : Nat := natAt f 0 / 16

/-- Version in bits 3 to 0 of octet 0 (R138). -/
def frameVersion (f : Octets) : Nat := natAt f 0 % 16

/-- The receiver's check: the CRC of header and body against the frame's last two octets (R139). -/
def frameCrcOk (f : Octets) : Bool :=
  f.drop (3 + frameLength f) == octets16 (crc (f.take (3 + frameLength f)))

/-- What Frame Dispatch takes a frame for (R147). -/
inductive FrameKind where
  | status | incident | ending | claim | withdraw | release
  /-- A frame of bad version, kind, source or fixed length. -/
  | invalid
  deriving DecidableEq, Repr

/-- The kind a code stands for, with version 1 (R147 step 1). -/
def kindOf (f : Octets) : FrameKind :=
  if frameVersion f = 1 then
    match frameKind f with
    | 1 => .status | 2 => .incident | 3 => .ending | 4 => .claim | 5 => .withdraw | 6 => .release
    | _ => .invalid
  else .invalid

/-- The source check (R147 step 2). -/
def sourceOk (count : Nat) (f : Octets) : Bool := 1 ≤ frameSource f && frameSource f ≤ count

/-- The length check of the fixed bodies (R147 step 4). -/
def fixedLengthOk (f : Octets) : Bool :=
  match kindOf f with
  | .incident | .claim => frameLength f == 9
  | .ending => frameLength f == 2
  | .withdraw | .release => frameLength f == 3
  | .status | .invalid => true

/-- What Frame Dispatch takes a frame for, in the order of R147. -/
def classify (count : Nat) (f : Octets) : FrameKind :=
  if sourceOk count f && fixedLengthOk f then kindOf f else .invalid

/-- An incident id as received: an origin of 1 to COUNT and a seq of 0 to 15 (R14, R114). -/
def readId (count origin seq : Nat) : Option Id :=
  if 1 ≤ origin ∧ origin ≤ count ∧ seq ≤ 15 then some ⟨origin, BitVec.ofNat 4 seq⟩ else none

/-- A signed field of two octets (R138). -/
def signed16 (high low : Octet) : Int := (high ++ low : BitVec 16).toInt

/-- A temperature or velocity field, `none` when it holds 0x8000 (R140). -/
def readReading (b : Octets) (i : Nat) : Option Int :=
  if (octetAt b i ++ octetAt b (i + 1) : BitVec 16) = 0x8000#16 then none
  else some (signed16 (octetAt b i) (octetAt b (i + 1)))

/-- The range check on a reading (R114). -/
def readingWithin (low high : Int) : Option Int → Bool
  | none => true
  | some v => low ≤ v && v ≤ high

/-- The mode field (R114). -/
def readMode (n : Nat) : Option Mode :=
  match n with
  | 1 => some .quiet | 2 => some .incident | 3 => some .maintenance | _ => none

/-- A list entry's state (R114). -/
def readEntryState (n : Nat) : Option EntryState :=
  match n with
  | 1 => some .active | 2 => some .absorbed | 3 => some .ended | _ => none

/-- `n` list entries; none where one of them fails the checks of R114. -/
def readEntries (count : Nat) : Nat → Octets → Option (List Entry)
  | 0, _ => some []
  | n + 1, b =>
    match readId count (natAt b 0) (natAt b 1), readEntryState (natAt b 2),
        readEntries count n (b.drop 3) with
    | some id, some st, some es => some (⟨id, st⟩ :: es)
    | _, _, _ => none

/-- The governing flag of a STATUS body (R140). -/
def statusGovFlag (b : Octets) : Bool := (octetAt b 12).getLsbD 7

/-- The pace flag of a STATUS body (R140). -/
def statusPaceFlag (b : Octets) : Bool := (octetAt b 12).getLsbD 6

/-- The entry count of a STATUS body (R140). -/
def statusEntryCount (b : Octets) : Nat := natAt b 12 % 16

/-- Where the entries begin (R140). -/
def statusEntriesAt (b : Octets) : Nat := if statusGovFlag b then 20 else 13

/-- The length check of a STATUS (R114), which the duplicate test asks too (R118). -/
def statusLengthOk (b : Octets) : Bool :=
  13 ≤ b.length && b.length == statusEntriesAt b + 3 * statusEntryCount b

/-- The factory serial in octets 0 to 3 (R140). -/
def statusSerial (b : Octets) : BitVec 32 :=
  octetAt b 0 ++ octetAt b 1 ++ octetAt b 2 ++ octetAt b 3

/-- The planner's fields of a STATUS body, checked (R114). -/
def readView (b : Octets) : Option View :=
  match readMode (natAt b 4) with
  | none => none
  | some mode =>
    let v : View :=
      { mode := mode, fans := natAt b 5, runA := natAt b 6 / 16, runB := natAt b 6 % 16,
        temp := readReading b 7, vel := readReading b 9 }
    if v.fans ≤ 4 && v.runA + v.runB ≤ v.fans &&
        (mode != .maintenance || v.fans == 0) &&
        readingWithin (-40) 1000 v.temp && readingWithin (-200) 200 v.vel &&
        !(statusGovFlag b && mode == .quiet) && !(!statusGovFlag b && mode == .incident)
    then some v else none

/-- The governing block, checked (R114): `none` fails, `some none` is an absent block. -/
def readGov (count : Nat) (b : Octets) : Option (Option GovBlock) :=
  if statusGovFlag b then
    match readId count (natAt b 13) (natAt b 14) with
    | none => none
    | some id => some (some
        { id := id, digest := octetAt b 15 ++ octetAt b 16,
          demand := (octetAt b 17 ++ octetAt b 18 : BitVec 16).toNat, serial := octetAt b 19,
          pace := statusPaceFlag b })
  else if statusPaceFlag b then none else some none

/-- Whether two of the entries carry the same id (R114). -/
def distinctIds : List Entry → Bool
  | [] => true
  | e :: es => es.all (fun x => x.id != e.id) && distinctIds es

/-- Whether the governing id is among the entries with state ACTIVE (R114). -/
def govListed (g : Option GovBlock) (es : List Entry) : Bool :=
  match g with
  | none => true
  | some g => es.any fun e => e.id == g.id && e.state == .active

/-- The status part a STATUS body carries, none where a check of R114 fails. -/
def readStatus (count : Nat) (b : Octets) : Option StatusPart :=
  if statusLengthOk b && statusEntryCount b ≤ 6 && statusSerial b != 0#32 then
    match readView b, readGov count b,
        readEntries count (statusEntryCount b) (b.drop (statusEntriesAt b)) with
    | some v, some g, some es =>
      if distinctIds es && govListed g es then some ⟨v, g, es⟩ else none
    | _, _, _ => none
  else none

/-- What an INCIDENT that passes the checks of R14 says. -/
inductive News where
  | active (id : Id) (c : Content)
  | absorbed (id survivor : Id) (c : Content)
  | ended (id : Id)
  deriving DecidableEq, Repr

/-- Seq `a` is older than seq `b` (R4). -/
def seqOlder (a b : BitVec 4) : Bool :=
  let d := (b - a).toNat
  (1 ≤ d && d ≤ 7) || (d == 8 && a.toNat < b.toNat)

/-- The key comparison: `a` has the lower key (R4). -/
def keyLt (a b : Id) : Bool :=
  if a.origin = b.origin then seqOlder a.seq b.seq else a.origin < b.origin

/-- The span, direction, source, revision and commanding station of an INCIDENT body, checked (R14). -/
def readContent (count : Nat) (b : Octets) : Option Content :=
  let commanded := (octetAt b 4).getLsbD 1
  let c : Content :=
    { lo := natAt b 2, hi := natAt b 3,
      dir := if (octetAt b 4).getLsbD 0 then .towardB else .towardA, rev := natAt b 5,
      cmd := if commanded then some (natAt b 6) else none }
  if 1 ≤ c.lo && c.hi ≤ count && c.lo ≤ c.hi && c.rev ≤ 15 && natAt b 6 ≤ count &&
      (commanded == (natAt b 6 != 0)) && (commanded || c.rev == 0)
  then some c else none

/-- An INCIDENT body read and checked (R14, R141); `none` is discarded with LINE_ERRORS. -/
def readIncident (count : Nat) (b : Octets) : Option News :=
  match readId count (natAt b 0) (natAt b 1 % 16), readContent count b with
  | some id, some c =>
    match natAt b 1 / 16 with
    | 1 => some (.active id c)
    | 2 =>
      match readId count (natAt b 7) (natAt b 8) with
      | some y => if keyLt y id then some (.absorbed id y c) else none
      | none => none
    | 3 => some (.ended id)
    | _ => none
  | _, _ => none

/-- An END body read and checked (R14, R142). -/
def readEnd (count : Nat) (b : Octets) : Option Id := readId count (natAt b 0) (natAt b 1)

/-- A slot number read (R94, R95). -/
def readSlot (n : Nat) : Option SlotNo :=
  match n with
  | 1 => some .fs1 | 2 => some .fs2 | 3 => some .fs3 | 4 => some .fs4 | _ => none

/-- A CLAIM body of the own section read and checked (R94). -/
def readClaim (count : Nat) (b : Octets) : Option Claim :=
  match readSlot (natAt b 1) with
  | none => none
  | some slot =>
    let key : Key :=
      { cls := natAt b 3, rank := natAt b 4,
        serial := octetAt b 5 ++ octetAt b 6 ++ octetAt b 7 ++ octetAt b 8 }
    if key.cls ≤ 1 && key.rank < count && key.serial != 0#32
    then some ⟨slot, octetAt b 2, key⟩ else none

/-! ## Sensor octets -/

/-- The range rule (R125). -/
def rangeRule (s : Sensor) (v : Int) : Option Int :=
  match s with
  | .heat => if -40 ≤ v ∧ v ≤ 1000 then some v else none
  | .opacity => some (max 0 (min 254 v))
  | .velocity => some (max (-200) (min 200 v))

/-- A transaction's sample: `none` is a missing one (R124, R125). -/
def sampleValue (s : Sensor) (high low check : Octet) : Option Int :=
  if check = high + low + 0x5A#8 ∧ (high ++ low : BitVec 16) ≠ 0x8000#16
  then rangeRule s (signed16 high low) else none

/-! ## Characters on the line -/

/-- A character as its ten bits in the order sent, bit 0 first: start bit 0, the data bits least
significant first, stop bit 1 (R149). -/
def characterBits (o : Octet) : BitVec 10 := 1#1 ++ o ++ 0#1

end Sys2Proof.Machine
end

