-- ==== Sys2Proof/Machine/Flags.lean ====
section
/-! DEFINITION. The health flags (R145). -/

namespace Sys2Proof.Machine

/-- The hold timer of a timed health flag. -/
def Health.get (h : Health) : TimedFlag → Option Time
  | .rxOverrun => h.rxOverrun
  | .lineErrors => h.lineErrors
  | .txCongested => h.txCongested
  | .sensorInvalid => h.sensorInvalid
  | .directionConflict => h.directionConflict
  | .incidentOverflow => h.incidentOverflow
  | .duplicateIndex => h.duplicateIndex

/-- The health flags with one hold timer set. -/
def Health.set (h : Health) (f : TimedFlag) (t : Option Time) : Health :=
  match f with
  | .rxOverrun => { h with rxOverrun := t }
  | .lineErrors => { h with lineErrors := t }
  | .txCongested => { h with txCongested := t }
  | .sensorInvalid => { h with sensorInvalid := t }
  | .directionConflict => { h with directionConflict := t }
  | .incidentOverflow => { h with incidentOverflow := t }
  | .duplicateIndex => { h with duplicateIndex := t }

/-- A raise of a flag starts its hold timer again from 60 s (R145). -/
def raiseFlag (f : TimedFlag) (s : State) : State :=
  { s with health := s.health.set f (some (s.now + healthTime)) }

/-- Whether a slot is LOCKED_OUT. -/
def isLockedOut : SlotState → Bool
  | .lockedOut _ => true
  | .stopped | .startWait _ | .starting _ _ | .running _ | .coasting _ | .tripped _
  | .localControl | .absent => false

/-- LOCKOUT_PRESENT, a level: some slot is LOCKED_OUT (R81, R145). -/
def lockoutPresent (s : State) : Bool :=
  isLockedOut s.fs.slots.one.st || isLockedOut s.fs.slots.two.st ||
    isLockedOut s.fs.slots.three.st || isLockedOut s.fs.slots.four.st

/-- The health octet, RX_OVERRUN in bit 7 to LOCKOUT_PRESENT in bit 0 (R145). -/
def healthOctet (s : State) : BitVec 8 :=
  BitVec.ofNat 8
    ((if s.health.rxOverrun.isSome then 128 else 0) +
     (if s.health.lineErrors.isSome then 64 else 0) +
     (if s.health.txCongested.isSome then 32 else 0) +
     (if s.health.sensorInvalid.isSome then 16 else 0) +
     (if s.health.directionConflict.isSome then 8 else 0) +
     (if s.health.incidentOverflow.isSome then 4 else 0) +
     (if s.health.duplicateIndex.isSome then 2 else 0) +
     (if lockoutPresent s then 1 else 0))

end Sys2Proof.Machine
end

