-- ==== Sys2Proof/Machine/Ops.lean ====
section
/-! DEFINITION. The operations the blocks share: the clock, the straps as latched, the four slots, the
station's availability, and the transmit queue (R152, R153). -/

namespace Sys2Proof.Machine

/-! ## The clock -/

/-- The clock comes to `t`, or stays where it is when it is there already: a command that waits for a
moment occurs no earlier than that moment (log 1). -/
def reachTime (t : Time) (s : State) : State := { s with now := max s.now t }

/-! ## The latched straps -/

/-- The station's own index (R165). -/
def State.station (s : State) : Nat := strapStation s.sj.straps
/-- COUNT (R165). -/
def State.count (s : State) : Nat := strapCount s.sj.straps
/-- SPACING in metres (R165). -/
def State.spacing (s : State) : Nat := strapSpacing s.sj.straps
/-- FANS after clamping (R165). -/
def State.fans (s : State) : Nat := strapFans s.sj.straps
/-- SECTION (R165). -/
def State.sect (s : State) : Nat := strapSection s.sj.straps
/-- The strapped bit time (R149). -/
def State.bit (s : State) : Time := bitTime (strapRate s.sj.straps)
/-- D_init (R39). -/
def State.initialD (s : State) : Nat := initialDemand (strapVtarget s.sj.straps)
/-- VT (R39). -/
def State.targetV (s : State) : Int := targetVelocity (strapVtarget s.sj.straps)

/-- The station mode becomes `m`. -/
def setMode (m : Mode) (s : State) : State := { s with sj := { s.sj with mode := m } }

/-! ## Four of a kind -/

/-- The one of slot `k`. -/
def Quad.get {α : Type} (q : Quad α) : SlotNo → α
  | .fs1 => q.one | .fs2 => q.two | .fs3 => q.three | .fs4 => q.four

/-- The quad with the one of slot `k` replaced. -/
def Quad.set {α : Type} (q : Quad α) (k : SlotNo) (a : α) : Quad α :=
  match k with
  | .fs1 => { q with one := a } | .fs2 => { q with two := a }
  | .fs3 => { q with three := a } | .fs4 => { q with four := a }

/-- The quad of what `f` makes of each. -/
def Quad.map {α β : Type} (f : α → β) (q : Quad α) : Quad β :=
  ⟨f q.one, f q.two, f q.three, f q.four⟩

/-- The quad of what `f` makes of each with its slot number. -/
def Quad.mapNo {α β : Type} (f : SlotNo → α → β) (q : Quad α) : Quad β :=
  ⟨f .fs1 q.one, f .fs2 q.two, f .fs3 q.three, f .fs4 q.four⟩

/-- Whether `p` holds of any of the four. -/
def Quad.any {α : Type} (p : α → Bool) (q : Quad α) : Bool :=
  p q.one || p q.two || p q.three || p q.four

/-- How many of the four satisfy `p`. -/
def Quad.count {α : Type} (p : α → Bool) (q : Quad α) : Nat :=
  (p q.one).toNat + (p q.two).toNat + (p q.three).toNat + (p q.four).toNat

/-- The slots in rising number. -/
def allSlots : List SlotNo := [.fs1, .fs2, .fs3, .fs4]

/-- FS1 is 1 to FS4 is 4. -/
def slotNumber : SlotNo → Nat
  | .fs1 => 1 | .fs2 => 2 | .fs3 => 3 | .fs4 => 4

/-- Slot `k` as it stands. -/
def State.slot (s : State) (k : SlotNo) : Slot := s.fs.slots.get k

/-- Slot `k` replaced. -/
def setSlot (k : SlotNo) (sl : Slot) (s : State) : State :=
  { s with fs := { s.fs with slots := s.fs.slots.set k sl } }

/-! ## What a slot state counts as -/

/-- A slot state counted in available fans, which is a state the planner may use (R54, R82). -/
def isUsable : SlotState → Bool
  | .stopped | .startWait _ | .starting _ _ | .running _ | .coasting _ => true
  | .tripped _ | .lockedOut _ | .localControl | .absent => false

/-- Whether a slot is in START_WAIT. -/
def isStartWait : SlotState → Bool
  | .startWait _ => true
  | .stopped | .starting _ _ | .running _ | .coasting _ | .tripped _ | .lockedOut _
  | .localControl | .absent => false

/-- Whether a slot is STARTING. -/
def isStarting : SlotState → Bool
  | .starting _ _ => true
  | .stopped | .startWait _ | .running _ | .coasting _ | .tripped _ | .lockedOut _
  | .localControl | .absent => false

/-- Whether a slot is STARTING or COASTING, the states a maintenance entry waits for (R83). -/
def isStartingOrCoasting : SlotState → Bool
  | .starting _ _ | .coasting _ => true
  | .stopped | .startWait _ | .running _ | .tripped _ | .lockedOut _ | .localControl
  | .absent => false

/-- Whether a slot is RUNNING in direction `d`. -/
def isRunning (d : Direction) : SlotState → Bool
  | .running x => x == d
  | .stopped | .startWait _ | .starting _ _ | .coasting _ | .tripped _ | .lockedOut _
  | .localControl | .absent => false

/-- The drive a slot state asserts: RUN_x in STARTING(x) and RUNNING(x) (R60). -/
def driveOf : SlotState → Option Direction
  | .starting d _ | .running d => some d
  | .stopped | .startWait _ | .coasting _ | .tripped _ | .lockedOut _ | .localControl
  | .absent => none

/-- Available fans f (R82): 0 in MAINTENANCE and CONFIG_FAULT. -/
def availableFans (s : State) : Nat :=
  match s.sj.mode with
  | .maintenance | .configFault => 0
  | .joining | .quiet | .incident => s.fs.slots.count fun sl => isUsable sl.st

/-- The running count in direction `d` (R82). -/
def runningCount (d : Direction) (s : State) : Nat :=
  s.fs.slots.count fun sl => isRunning d sl.st

/-! ## Times held for ids -/

/-- The time held for `id`, if any. -/
def timeOf (l : List IdTime) (id : Id) : Option Time :=
  (l.find? fun x => x.id == id).map IdTime.time

/-- Nothing held for `id`. -/
def dropTime (l : List IdTime) (id : Id) : List IdTime := l.filter fun x => x.id != id

/-- `t` held for `id`, in place of any time held for it. -/
def putTime (l : List IdTime) (id : Id) (t : Time) : List IdTime := dropTime l id ++ [⟨id, t⟩]

/-- Fewer than 1 s have passed at `now` since the time held for `id` (R26, R27).  A time 1 s or more
old no longer bears on anything. -/
def withinRate (l : List IdTime) (id : Id) (now : Time) : Bool :=
  match timeOf l id with
  | none => false
  | some t => now < t + rateTime

/-- The times less than 1 s old, with `now` put for `id`. -/
def stampTime (l : List IdTime) (id : Id) (now : Time) : List IdTime :=
  putTime (l.filter fun x => now < x.time + rateTime) id now

/-! ## The transmit queue -/

/-- The class of a bulletin, 0 sent first (R152). -/
def bodyClass : Body → Nat
  | .incident _ _ _ | .ending _ => 0
  | .claim _ _ | .withdraw _ _ _ | .release _ _ _ => 1
  | .status _ _ _ => 2

/-- The incident id a frame of class 0 concerns (R153). -/
def bodyId : Body → Option Id
  | .incident id _ _ => some id
  | .ending id => some id
  | .claim _ _ | .withdraw _ _ _ | .release _ _ _ | .status _ _ _ => none

/-- The claim number of a CLAIM. -/
def claimNumber : Body → Option (BitVec 8)
  | .claim _ c => some c.number
  | .incident _ _ _ | .ending _ | .withdraw _ _ _ | .release _ _ _ | .status _ _ _ => none

/-- A frame `new` takes the place of the waiting frame `old` (R153): a STATUS that of a STATUS, an
INCIDENT or END that of a frame of class 0 for its id, a RELEASE that of its own claim's CLAIM. -/
def takesPlaceOf (new old : Body) : Bool :=
  match new with
  | .status _ _ _ => bodyClass old == 2
  | .incident id _ _ => bodyId old == some id
  | .ending id => bodyId old == some id
  | .release _ _ n => claimNumber old == some n
  | .claim _ _ | .withdraw _ _ _ => false

/-- The queue with `b` in the place, and with the attempt count, of the first frame it takes the place
of; none where there is no such frame (R153). -/
def replaceIn (b : Body) : List TxFrame → Option (List TxFrame)
  | [] => none
  | f :: fs =>
    if takesPlaceOf b f.body then some ({ f with body := b } :: fs)
    else (replaceIn b fs).map (f :: ·)

/-- The queue with `f` at the tail of its class (R152). -/
def insertTail (f : TxFrame) : List TxFrame → List TxFrame
  | [] => [f]
  | g :: gs => if bodyClass f.body < bodyClass g.body then f :: g :: gs else g :: insertTail f gs

/-- The queue with `f` at the head of its class (R156). -/
def insertHead (f : TxFrame) : List TxFrame → List TxFrame
  | [] => [f]
  | g :: gs => if bodyClass f.body ≤ bodyClass g.body then f :: g :: gs else g :: insertHead f gs

/-- The queue without the first frame that satisfies `p`. -/
def removeFirst (p : TxFrame → Bool) : List TxFrame → List TxFrame
  | [] => []
  | f :: fs => if p f then fs else f :: removeFirst p fs

/-- Whether `f` is the CLAIM of claim number `n`. -/
def isClaimNo (n : BitVec 8) (f : TxFrame) : Bool := claimNumber f.body == some n

/-- Whether `f` is the WITHDRAW of claim number `n`. -/
def isWithdrawNo (n : BitVec 8) (f : TxFrame) : Bool :=
  match f.body with
  | .withdraw _ _ m => m == n
  | .incident _ _ _ | .ending _ | .claim _ _ | .release _ _ _ | .status _ _ _ => false

/-- The transmit queue replaced. -/
def setTx (q : List TxFrame) (s : State) : State := { s with li := { s.li with tx := q } }

/-- The own claim replaced. -/
def setOwn (o : OwnClaim) (s : State) : State := { s with cu := { s.cu with own := o } }

/-- Every LATE entry becomes EARLY, as it does when the own claim leaves SETTLING (R97). -/
def allEarly (s : State) : State :=
  { s with cu := { s.cu with view := s.cu.view.map fun e => { e with late := false } } }

/-- The Line Interface reports a CLAIM not taken, or dropped on its return: an own claim SETTLING with
its number returns to NONE (R91, R152). -/
def claimNotSent (b : Body) (s : State) : State :=
  match claimNumber b, s.cu.own with
  | some n, .settling c _ => if c.number = n then setOwn .none (allEarly s) else s
  | _, _ => s

/-- A frame not taken, or dropped, for want of room: TX_CONGESTED, and the report of a CLAIM (R152). -/
def refuseFrame (b : Body) (s : State) : State := claimNotSent b (raiseFlag .txCongested s)

/-- A frame joins the tail of its class with an attempt count of 0, unless 10 frames wait (R152, R153). -/
def joinTail (b : Body) (s : State) : State :=
  if maxTx ≤ s.li.tx.length then refuseFrame b s
  else setTx (insertTail ⟨b, 0⟩ s.li.tx) s

/-- A block places a frame (R153, R158). -/
def place (b : Body) (s : State) : State :=
  if s.sj.mode = .configFault then s
  else
    match b with
    | .withdraw _ _ n =>
      if s.li.tx.any (isClaimNo n) then setTx (removeFirst (isClaimNo n) s.li.tx) s
      else joinTail b s
    | .status _ _ _ | .incident _ _ _ | .ending _ | .claim _ _ | .release _ _ _ =>
      match replaceIn b s.li.tx with
      | some q => setTx q s
      | none => joinTail b s

/-! ## Command lamps -/

/-- CMD_ACCEPT lights for a fresh 2 s and CMD_REFUSED goes dark (R162). -/
def lightAccept (s : State) : State :=
  { s with no := { s.no with acceptDue := some (s.now + lampTime), refusedDue := none } }

/-- CMD_REFUSED lights for a fresh 2 s and CMD_ACCEPT goes dark (R162). -/
def lightRefused (s : State) : State :=
  { s with no := { s.no with refusedDue := some (s.now + lampTime), acceptDue := none } }

/-- CMD_CONFLICT lights, and the conflict is held, for at least 2 s from now (R20, R162).  Its output stays
dark until the first command after JOINING (R164, `conflictOut`, log 34). -/
def lightConflict (s : State) : State :=
  { s with no := { s.no with conflict := ⟨true, some (s.now + lampTime)⟩ } }

/-- Entry to a command conflict: DIRECTION_CONFLICT is raised and CMD_CONFLICT lights (R20). -/
def enterConflict (s : State) : State := raiseFlag .directionConflict (lightConflict s)

/-- A command is taken: from now on the command lamps show what they hold (R164). -/
def noteCommand (s : State) : State := { s with no := { s.no with commanded := true } }

end Sys2Proof.Machine
end

