-- ==== Sys2Proof/Machine/Incidents.lean ====
section
/-! DEFINITION. The incident list and what changes it (chapter 1): keys, chains, merging, absorption,
the burnt presumption, re-announces, stand-down and the answers to ENDED ids. -/

namespace Sys2Proof.Machine

/-! ## Choosing by key -/

/-- The id of `ids` that `better` prefers to every other; where the comparison runs in a circle there
is none, and the free value picks (R4, log 3). -/
def pickId (better : Id → Id → Bool) (ids : List Id) : Option Id :=
  match ids.find? fun a => ids.all fun b => a == b || better a b with
  | some a => some a
  | none =>
    ids[Config.cycleChoice (ids.map fun i => (i.origin, i.seq.toNat)) % ids.length]?

/-- The id of lowest key (R4). -/
def lowestKey (ids : List Id) : Option Id := pickId keyLt ids

/-- The id of highest key (R4). -/
def highestKey (ids : List Id) : Option Id := pickId (fun a b => keyLt b a) ids

/-! ## The list -/

/-- The record held for `id`. -/
def findRec (rs : List Rec) (id : Id) : Option Rec := rs.find? fun r => r.id == id

/-- The record `id` resolves to, within `n` links (R13). -/
def resolveWithin (rs : List Rec) : Nat → Id → Option Rec
  | 0, _ => none
  | n + 1, id =>
    match findRec rs id with
    | none => none
    | some r =>
      match r.st with
      | .absorbed y => resolveWithin rs n y
      | .active _ _ | .ended _ _ => some r

/-- The record `id` resolves to: a chain is at most 5 links long (R13). -/
def resolve (rs : List Rec) (id : Id) : Option Rec := resolveWithin rs maxRecords id

/-- The span, direction and source of an ACTIVE record. -/
def contentOf (r : Rec) : Option Content :=
  match r.st with
  | .active c _ => some c
  | .absorbed _ | .ended _ _ => none

/-- The content of the ACTIVE record `id` resolves to. -/
def resolvedContent (rs : List Rec) (id : Id) : Option Content :=
  (resolve rs id).bind contentOf

/-- The ACTIVE records. -/
def actives (rs : List Rec) : List (Id × Content) :=
  rs.filterMap fun r => (contentOf r).map fun c => (r.id, c)

/-- Whether a record is ENDED. -/
def isEnded (r : Rec) : Bool :=
  match r.st with
  | .ended _ _ => true
  | .active _ _ | .absorbed _ => false

/-- Whether `id` is held ENDED. -/
def heldEnded (rs : List Rec) (id : Id) : Bool := rs.any fun r => r.id == id && isEnded r

/-- Every record with id `id` given the state `st`. -/
def setRecState (rs : List Rec) (id : Id) (st : RecState) : List Rec :=
  rs.map fun r => if r.id == id then { r with st := st } else r

/-- The content of the ACTIVE record `id` replaced, its demand part kept. -/
def setContent (rs : List Rec) (id : Id) (c : Content) : List Rec :=
  rs.map fun r =>
    match r.st with
    | .active _ d => if r.id == id then { r with st := .active c d } else r
    | .absorbed _ | .ended _ _ => r

/-- The demand part of the ACTIVE record `id` replaced. -/
def setDemand (rs : List Rec) (id : Id) (d : Option Demand) : List Rec :=
  rs.map fun r =>
    match r.st with
    | .active c _ => if r.id == id then { r with st := .active c d } else r
    | .absorbed _ | .ended _ _ => r

/-- The incident list replaced. -/
def setRecords (rs : List Rec) (s : State) : State := { s with iu := { s.iu with records := rs } }

/-- The pending re-announces replaced. -/
def setReannounce (l : List IdTime) (s : State) : State :=
  { s with iu := { s.iu with reannounce := l } }

/-! ## Places (R3) -/

/-- When a record became ENDED, by the count of ending events. -/
def endOrder (r : Rec) : Option Nat :=
  match r.st with
  | .ended n _ => some n
  | .active _ _ | .absorbed _ => none

/-- The ENDED record that is evicted: of those that ended longest ago, the one of highest key (R3). -/
def evictee (rs : List Rec) : Option Id :=
  match (rs.filterMap endOrder).min? with
  | none => none
  | some n => highestKey ((rs.filter fun r => endOrder r == some n).map Rec.id)

/-- The list with a place in it for a new record; none where there is no room (R3). -/
def makeRoom (rs : List Rec) : Option (List Rec) :=
  if rs.length < maxRecords then some rs
  else
    match evictee rs with
    | none => none
    | some id => some (rs.filter fun r => r.id != id)

/-- A new record takes its place. -/
def addRec (rs : List Rec) (r : Rec) : List Rec := (rs.filter fun x => x.id != r.id) ++ [r]

/-! ## Distance and the governing incident -/

/-- The distance in stations from `p` to the span (R18). -/
def distance (p : Nat) (c : Content) : Nat := if p < c.lo then c.lo - p else p - c.hi

/-- The governing incident: the nearest ACTIVE record, at equal distance the one of lower key (R18). -/
def governingOf (p : Nat) (rs : List Rec) : Option Id :=
  match ((actives rs).map fun a => distance p a.2).min? with
  | none => none
  | some m => lowestKey (((actives rs).filter fun a => distance p a.2 == m).map Prod.fst)

/-- An ACTIVE record as the planner reads it. -/
structure Governing where
  id : Id
  content : Content
  demand : Option Demand
  deriving DecidableEq, Repr

/-- The governing record (R18). -/
def governing (s : State) : Option Governing :=
  match governingOf s.station s.iu.records with
  | none => none
  | some id =>
    match findRec s.iu.records id with
    | none => none
    | some r =>
      match r.st with
      | .active c d => some ⟨id, c, d⟩
      | .absorbed _ | .ended _ _ => none

/-- Whether the list holds an ACTIVE record (R28). -/
def anyActive (s : State) : Bool := (actives s.iu.records).any fun _ => true

/-! ## Sequence counter (R5) -/

/-- The counter catches up to an id heard whose origin is the own index (R5). -/
def catchUp (id : Id) (s : State) : State :=
  if id.origin = s.station ∧ seqOlder s.iu.counter (id.seq + 1#4) = true then
    { s with iu := { s.iu with counter := id.seq + 1#4 } }
  else s

/-! ## Merging (R12) -/

/-- The rank of a contribution: revision, then commanding station, 0 when COMPUTED (R12). -/
def outranks (new held : Content) : Bool :=
  held.rev < new.rev || (held.rev == new.rev && held.cmd.getD 0 < new.cmd.getD 0)

/-- Two views combined: the union of the spans, and the direction of the contribution that ranks
higher, the held one on a full tie (R12). -/
def merge (held new : Content) : Content :=
  let w := if outranks new held then new else held
  { lo := min held.lo new.lo, hi := max held.hi new.hi, dir := w.dir, rev := w.rev, cmd := w.cmd }

/-- Whether the span grew. -/
def spanGrew (old new : Content) : Bool := new.lo != old.lo || new.hi != old.hi

/-- A command conflict, when `new` replaces a direction this station commanded in `old` with a
different one that another station, or none, commands (R20).  It is found in every mode that holds a
list. -/
def noteConflict (old new : Content) (s : State) : State :=
  if old.cmd = some s.station ∧ new.dir ≠ old.dir ∧ new.cmd ≠ some s.station then enterConflict s
  else s

/-- The ACTIVE record `id`, which held `old`, takes the content `new`. -/
def replaceContent (id : Id) (old new : Content) (s : State) : State :=
  noteConflict old new (setRecords (setContent s.iu.records id new) s)

/-! ## Bulletins of the Incident Unit -/

/-- An INCIDENT for `id` is placed: an ACTIVE one, or an ABSORBED notice with the content of the record
the survivor resolves to (R16, R141); nothing for an id that is neither.  The moment is noted for the rate
of R26 even where a full queue does not take the frame, which R26 leaves open (log 38). -/
def placeIncident (id : Id) (s : State) : State :=
  match findRec s.iu.records id, resolvedContent s.iu.records id with
  | some r, some c =>
    let survivor := match r.st with
      | .absorbed y => some y
      | .active _ _ | .ended _ _ => none
    place (.incident id survivor c)
      { s with iu := { s.iu with incidentSent := stampTime s.iu.incidentSent id s.now } }
  | _, _ => s

/-- An END for `id` is placed, and the moment noted for the rate of R27, even where a full queue does not
take the frame, which R27 leaves open (log 38). -/
def placeEnd (id : Id) (s : State) : State :=
  place (.ending id) { s with iu := { s.iu with endSent := stampTime s.iu.endSent id s.now } }

/-- A mention of `id`, held ENDED, is answered with END at once, unless the last answer for it was
less than 1 s ago (R27). -/
def answerEnd (id : Id) (s : State) : State :=
  if withinRate s.iu.endSent id s.now then s else placeEnd id s

/-- A re-announce of `id` is triggered: its defer is 20 ms × (1 + d); one already pending runs on
(R26).  d is reckoned from the span held at this trigger.  Where one event grows or joins the span several
times, the first trigger within the event counts, and not the span the event ends with: the model's choice
(log 48). -/
def triggerReannounce (id : Id) (s : State) : State :=
  match timeOf s.iu.reannounce id, resolvedContent s.iu.records id with
  | none, some c =>
    setReannounce
      (putTime s.iu.reannounce id (s.now + deferUnit * (1 + distance s.station c))) s
  | _, _ => s

/-- Re-announces of several ids, in order. -/
def triggerAll : List Id → State → State
  | [], s => s
  | id :: ids, s => triggerAll ids (triggerReannounce id s)

/-! ## Absorption and burnt presumption -/

/-- At most 2 stations lie strictly between the spans, or they overlap (R16). -/
def spansMeet (a b : Content) : Bool := a.lo ≤ b.hi + 3 && b.lo ≤ a.hi + 3

/-- The pairs of ACTIVE records that meet the absorption test, the lower key first (R16). -/
def meetingPairs (rs : List Rec) : List (Id × Id) :=
  (actives rs).flatMap fun a => (actives rs).filterMap fun b =>
    if keyLt a.1 b.1 && spansMeet a.2 b.2 then some (a.1, b.1) else none

/-- The pair handled first: lowest lower key, then lowest other key (R16). -/
def firstPair (rs : List Rec) : Option (Id × Id) :=
  match lowestKey ((meetingPairs rs).map Prod.fst) with
  | none => none
  | some a =>
    match lowestKey (((meetingPairs rs).filter fun p => p.1 == a).map Prod.snd) with
    | none => none
    | some b => some (a, b)

/-- The record `y` is absorbed into `x`, both ACTIVE: union, precedence of direction, link (R16). -/
def foldInto (x y : Id) (s : State) : State :=
  match (findRec s.iu.records x).bind contentOf, (findRec s.iu.records y).bind contentOf with
  | some cx, some cy =>
    let m := merge cx cy
    noteConflict cy m
      (replaceContent x cx m (setRecords (setRecState s.iu.records y (.absorbed x)) s))
  | _, _ => s

/-- The pair is joined and both ids are re-announced (R16), their defers reckoned from the union as it then
stands, whatever the event still adds to it (log 48). -/
def absorbPair (p : Id × Id) (s : State) : State := triggerAll [p.1, p.2] (foldInto p.1 p.2 s)

/-- The record held for peer `p`; an unlisted peer is UNKNOWN with nothing held (R107). -/
def peerOf (pt : List Peer) (p : Nat) : Peer :=
  (pt.find? fun x => x.index == p).getD ⟨p, .unknown, none, false⟩

/-- A SILENT peer last heard with a valid temperature of 60 °C or more (R11). -/
def isBurnt (s : State) (p : Nat) : Bool :=
  match (peerOf s.pt p).liveness, (peerOf s.pt p).status with
  | .silent, some st =>
    match st.view.temp with
    | some t => p != s.station && 1 ≤ p && p ≤ s.count && 60 ≤ t
    | none => false
  | _, _ => false

/-- The span with the burnt stations next to its ends taken in, one at each end (R11). -/
def burntSpan (s : State) (c : Content) : Content :=
  { c with
    lo := if 2 ≤ c.lo ∧ isBurnt s (c.lo - 1) = true then c.lo - 1 else c.lo
    hi := if isBurnt s (c.hi + 1) then c.hi + 1 else c.hi }

/-- The ACTIVE records that a burnt station extends (R11). -/
def burntRecs (s : State) : List (Id × Content) :=
  (actives s.iu.records).filter fun a => spanGrew a.2 (burntSpan s a.2)

/-- Every ACTIVE record takes in the burnt stations next to its span, at both ends together, and is then
re-announced (R11); a later round of the same event does not restart the defer (R26, log 48). -/
def takeBurnt (s : State) : State :=
  triggerAll ((burntRecs s).map Prod.fst)
    (setRecords
      (s.iu.records.map fun r =>
        match r.st with
        | .active c d => { r with st := .active (burntSpan s c) d }
        | .absorbed _ | .ended _ _ => r) s)

/-- The absorption test until no pair meets it, and the burnt presumption on what has grown, again and
again until neither changes anything (R11, R16). -/
def settleSpans : Nat → State → State
  | 0, s => s
  | n + 1, s =>
    match firstPair s.iu.records with
    | some p => settleSpans n (absorbPair p s)
    | none => if (burntRecs s).isEmpty then s else settleSpans n (takeBurnt s)

/-- More rounds than 6 records with spans of at most 120 stations can take. -/
def settleRounds : Nat := 800

/-- The absorption test and burnt presumption after a span has grown or a record was created. -/
def grown (s : State) : State := settleSpans settleRounds s

/-! ## Declaration and extension -/

/-- The computed direction of a declaration (R8). -/
def computedDirection (count lo hi : Nat) : Direction :=
  if lo + hi ≤ count + 1 then .towardA else .towardB

/-- The record a declaration creates (R7). -/
def declaredRec (s : State) : Rec :=
  { id := ⟨s.station, s.iu.counter⟩
    st := .active ⟨s.station, s.station, computedDirection s.count s.station s.station, 0, none⟩ none }

/-- A declaration, or its refusal (R7).  Its INCIDENT is built from the record as declared, before the
absorption and the burnt presumption that follow at the same event: R7 leaves that order open (log 36). -/
def declare (s : State) : State :=
  match makeRoom s.iu.records with
  | none => raiseFlag .incidentOverflow s
  | some rs =>
    grown (placeIncident (declaredRec s).id
      { s with iu := { s.iu with records := addRec rs (declaredRec s)
                                 counter := s.iu.counter + 1#4 } })

/-- The station lies within [lo − 2, hi + 2] (R7, R9). -/
def withinReach (p : Nat) (c : Content) : Bool := c.lo ≤ p + 2 && p ≤ c.hi + 2

/-- The span widened to take in station `p` (R9). -/
def widened (p : Nat) (c : Content) : Content := { c with lo := min c.lo p, hi := max c.hi p }

/-- Every ACTIVE record within reach is extended, and re-announced where its span changed (R9). -/
def extendRecords (s : State) : State :=
  let changed := ((actives s.iu.records).filter fun a =>
    withinReach s.station a.2 && spanGrew a.2 (widened s.station a.2)).map Prod.fst
  if changed.isEmpty then s
  else
    grown (triggerAll changed (setRecords
      (s.iu.records.map fun r =>
        match r.st with
        | .active c d =>
          if withinReach s.station c then { r with st := .active (widened s.station c) d } else r
        | .absorbed _ | .ended _ _ => r) s))

/-- An alarm event acted on against the list (R7, R9). -/
def actOnAlarm (s : State) : State :=
  if (actives s.iu.records).any fun a => withinReach s.station a.2 then extendRecords s else declare s

/-- An alarm event as the Incident Unit takes it in each mode (R7, R9, R10, R132). -/
def alarmEvent (s : State) : State :=
  match s.sj.mode with
  | .joining => { s with iu := { s.iu with heldAlarm := true } }
  | .quiet | .incident | .maintenance => actOnAlarm s
  | .configFault => s

/-! ## Ending -/

/-- The records whose chain resolves to `g` become ENDED in one event, and their pending re-announces
are cancelled (R21, R22). -/
def endChain (g : Id) (s : State) : State :=
  let gone := (s.iu.records.filter fun r => (resolve s.iu.records r.id).map Rec.id == some g).map
    Rec.id
  { s with iu := { s.iu with
      records := s.iu.records.map fun r =>
        if gone.contains r.id then
          { r with st := .ended s.iu.endings (s.now + endingTime) }
        else r
      reannounce := s.iu.reannounce.filter fun x => !gone.contains x.id
      endings := s.iu.endings + 1 } }

/-- A new ENDED record for `id` in `rs`. -/
def addEnded (rs : List Rec) (id : Id) (s : State) : State :=
  { s with iu := { s.iu with
      records := addRec rs ⟨id, .ended s.iu.endings (s.now + endingTime)⟩
      endings := s.iu.endings + 1 } }

/-- A stand-down of the governing incident, or its refusal (R21). -/
def standDown (s : State) : State :=
  match governing s with
  | none => lightRefused s
  | some g =>
    let s := placeEnd g.id (endChain g.id s)
    lightAccept { s with iu := { s.iu with
      endRepeats := s.iu.endRepeats ++
        [⟨g.id, s.now + endRepeatTime⟩, ⟨g.id, s.now + 2 * endRepeatTime⟩] } }

/-- A received END that passed its checks (R22). -/
def receiveEnd (id : Id) (s : State) : State :=
  match resolve s.iu.records id with
  | none =>
    match makeRoom s.iu.records with
    | none => s
    | some rs => addEnded rs id s
  | some r => if isEnded r then s else endChain r.id s

/-! ## Direction commands -/

/-- A direction command toward `d`, `other` being the debounced level of the other push input (R19). -/
def directionCommand (d : Direction) (other : Bool) (s : State) : State :=
  match governing s with
  | none => lightRefused s
  | some g =>
    if g.content.rev < 15 ∧ other = false then
      lightAccept (triggerReannounce g.id (setRecords (setContent s.iu.records g.id
        { g.content with dir := d, rev := g.content.rev + 1, cmd := some s.station }) s))
    else lightRefused s

/-! ## Views from peers -/

/-- A view of `id` is applied to the record it resolves to, or makes a new ACTIVE record; the second
part says whether it was dropped for want of room (R15). -/
def applyView (id : Id) (c : Content) (s : State) : State × Bool :=
  match resolve s.iu.records id with
  | none =>
    match makeRoom s.iu.records with
    | none => (raiseFlag .incidentOverflow s, true)
    | some rs => (setRecords (addRec rs ⟨id, .active c none⟩) s, false)
  | some r =>
    match r.st with
    | .active old _ => (replaceContent r.id old (merge old c) s, false)
    | .ended _ _ => (answerEnd id s, false)
    | .absorbed _ => (s, false)

/-- A pending re-announce of `id`, the id a received INCIDENT names, is dropped when the INCIDENT carried what
is now held (R26).  That of the record `id` resolves to stands: R26 does not speak of it (log 37). -/
def dropSaid (id : Id) (said : Bool) (s : State) : State :=
  if said then setReannounce (dropTime s.iu.reannounce id) s else s

/-- Divergence from a received INCIDENT for `id` that carried `c` (R25, third case): the governing
record, to which `id` resolves, differs from it. -/
def divergeFrom (id : Id) (c : Content) (s : State) : State :=
  match governing s with
  | none => s
  | some g =>
    if (resolve s.iu.records id).map Rec.id = some g.id ∧ g.content ≠ c then
      triggerReannounce g.id s
    else s

/-- An ACTIVE INCIDENT (R15), then the drop of R26, for the named id alone (log 37), and the divergence
test of R25. -/
def receiveActive (id : Id) (c : Content) (s : State) : State :=
  let r := applyView id c s
  if r.2 then r.1
  else
    let t := grown r.1
    divergeFrom id c
      (dropSaid id ((findRec t.iu.records id).bind contentOf == some c) t)

/-- The absorbed id of a notice whose survivor `y` is held ENDED (R17 step 2). -/
def absorbIntoEnded (x : Id) (s : State) : State :=
  match findRec s.iu.records x with
  | none =>
    match makeRoom s.iu.records with
    | none => raiseFlag .incidentOverflow s
    | some rs => addEnded rs x s
  | some r =>
    match r.st with
    | .active _ _ => endChain x s
    | .absorbed _ => s
    | .ended _ _ => answerEnd x s

/-- The absorbed id of a notice whose survivor `y` resolves to the ACTIVE record `e` (R17 step 2).  A
link that would close a loop is not set: then `x` is `e`, which step 1 has given the content (R13). -/
def absorbIntoActive (x y e : Id) (s : State) : State :=
  match findRec s.iu.records x with
  | none =>
    match makeRoom s.iu.records with
    | none => raiseFlag .incidentOverflow s
    | some rs => setRecords (addRec rs ⟨x, .absorbed y⟩) s
  | some r =>
    match r.st with
    | .active _ _ =>
      if x = e then s
      else
        let t := foldInto e x s
        setRecords (setRecState t.iu.records x (.absorbed y)) t
    | .absorbed _ => s
    | .ended _ _ => answerEnd x s

/-- Step 2 of R17, by what the survivor resolves to after step 1. -/
def absorbNoted (x y : Id) (s : State) : State :=
  match resolve s.iu.records y with
  | none => s
  | some e => if isEnded e then absorbIntoEnded x s else absorbIntoActive x y e.id s

/-- Whether `x` is held ABSORBED toward `y` with the survivor content `c` (R26). -/
def noticeHeld (x y : Id) (c : Content) (s : State) : Bool :=
  (findRec s.iu.records x).map Rec.st == some (.absorbed y) &&
    resolvedContent s.iu.records x == some c

/-- An ABSORBED notice: `x` was absorbed into `y`, whose content is `c` (R17).  The divergence test of R25
is made for both ids, each an id the notice names (log 11). -/
def receiveAbsorbed (x y : Id) (c : Content) (s : State) : State :=
  let r := applyView y c s
  if r.2 then r.1
  else
    let t := grown (absorbNoted x y r.1)
    divergeFrom y c (divergeFrom x c (dropSaid x (noticeHeld x y c t) t))

/-- An INCIDENT body handed on by Frame Dispatch: the checks, the counter, and its application (R14).  Of
the two ids of a notice the counter hears the absorbed one first: R5 leaves that order open (log 35). -/
def receiveIncident (b : Octets) (s : State) : State :=
  match readIncident s.count b with
  | none => raiseFlag .lineErrors s
  | some (.active id c) => receiveActive id c (catchUp id s)
  | some (.absorbed x y c) => receiveAbsorbed x y c (catchUp y (catchUp x s))
  | some (.ended id) => receiveEnd id (catchUp id s)

/-- An END body handed on by Frame Dispatch (R14, R22). -/
def receiveEnding (b : Octets) (s : State) : State :=
  match readEnd s.count b with
  | none => raiseFlag .lineErrors s
  | some id => receiveEnd id (catchUp id s)

/-! ## A stored STATUS -/

/-- Every id a stored STATUS carries is heard (R5). -/
def catchUpAll : List Id → State → State
  | [], s => s
  | id :: ids, s => catchUpAll ids (catchUp id s)

/-- ENDED ids mentioned are answered, in the order of `mentions` (R27). -/
def answerAll : List Id → State → State
  | [], s => s
  | id :: ids, s =>
    answerAll ids (if heldEnded s.iu.records id then answerEnd id s else s)

/-- The ids a STATUS mentions as ACTIVE or ABSORBED, or as governing (R27), in the order their END answers are
placed: the entries in the order of the frame, then the governing id.  R140 has the entries read as a set, so
that order is the model's choice (log 44). -/
def mentions (st : StatusPart) : List Id :=
  ((st.entries.filter fun e => e.state != .ended).map Entry.id) ++
    (match st.gov with | none => [] | some g => [g.id])

/-- The id a STATUS makes this station re-announce: the first two cases of R25.  A STATUS whose list
holds the governing id as ENDED is not divergence. -/
def statusDivergence (st : StatusPart) (s : State) : Option Id :=
  match governing s with
  | none => none
  | some g =>
    let here (x : Id) : Bool := (resolve s.iu.records x).map Rec.id == some g.id
    if st.entries.any fun e => e.id == g.id && e.state == .ended then none
    else
      match st.gov with
      | some b =>
        if here b.id && b.digest != digest g.id g.content then some b.id
        else if st.entries.any fun e => e.id == g.id || here e.id then none
        else some g.id
      | none => if st.entries.any fun e => e.id == g.id || here e.id then none else some g.id

/-- The Incident Unit takes a stored STATUS (R115): the counter, the answers, the divergence tests.  The
counter hears the governing id first and then the entries in the order of the frame: R5 leaves that order
open (log 35). -/
def takeStatus (st : StatusPart) (s : State) : State :=
  let s := catchUpAll ((match st.gov with | none => [] | some g => [g.id]) ++
    st.entries.map Entry.id) s
  let s := answerAll (mentions st) s
  match statusDivergence st s with
  | none => s
  | some id => triggerReannounce id s

end Sys2Proof.Machine
end

