-- ==== Sys2Proof/Machine/Slots.lean ====
section
/-! DEFINITION. The life of one slot (chapter 3): how it takes a target, its starts, coasts, trips and
lockouts, each told from the slot alone; then maintenance and the resets, which take all four. -/

namespace Sys2Proof.Machine

/-- Where a slot stands while it acts: the clock, and whether a maintenance entry is pending, which
keeps a STOPPED slot from START_WAIT (R83). -/
structure SlotCtx where
  now : Time
  maintPending : Bool
  deriving DecidableEq, Repr

/-- The context of a slot's action in `s`. -/
def State.slotCtx (s : State) : SlotCtx := ⟨s.now, s.fs.maintPending⟩

/-- COASTING from now, with its full coast timer (R72). -/
def coastFrom (x : SlotCtx) : SlotState := .coasting (x.now + coastTime)

/-- TRIPPED from now, with its trip hold (R76, R77). -/
def tripFrom (x : SlotCtx) : SlotState := .tripped (some (x.now + tripHoldTime))

/-- The state of a slot that enters STOPPED, or is STOPPED, holding `t` (R64, R83). -/
def stoppedWith (x : SlotCtx) (t : Target) : SlotState :=
  match t with
  | .off => .stopped
  | .run d => if x.maintPending then .stopped else .startWait d

/-- The state of a RUNNING(d) slot that acts on target `t` (R70). -/
def runningWith (x : SlotCtx) (d : Direction) (t : Target) : SlotState :=
  match t with
  | .off => coastFrom x
  | .run y => if y = d then .running d else coastFrom x

/-- What a handed target makes of the slot's state (R64). -/
def stateOnTarget (x : SlotCtx) (t : Target) : SlotState → SlotState
  | .stopped => stoppedWith x t
  | .startWait _ =>
    match t with
    | .off => .stopped
    | .run y => .startWait y
  | .running d => runningWith x d t
  | .starting d due => .starting d due
  | .coasting due => .coasting due
  | .tripped h => .tripped h
  | .lockedOut c => .lockedOut c
  | .localControl => .localControl
  | .absent => .absent

/-- A slot is handed a target (R62, R64); an ABSENT slot takes none. -/
def handTarget (x : SlotCtx) (t : Target) (sl : Slot) : Slot :=
  match sl.st with
  | .absent => sl
  | .stopped | .startWait _ | .starting _ _ | .running _ | .coasting _ | .tripped _
  | .lockedOut _ | .localControl => { sl with target := t, st := stateOnTarget x t sl.st }

/-- A fault under drive: the count rises by 1, and at 2 the slot locks out with `cause`; otherwise it
goes to `other` (R80). -/
def countFault (cause : LockCause) (other : SlotState) (sl : Slot) : Slot :=
  { sl with faults := sl.faults + 1,
            st := if 2 ≤ sl.faults + 1 then .lockedOut cause else other }

/-- RUN_FB is taken asserted (R68, R79). -/
def runAsserted (x : SlotCtx) (sl : Slot) : Slot :=
  match sl.st with
  | .starting d _ => { sl with st := runningWith x d sl.target }
  | .stopped | .startWait _ => { sl with st := coastFrom x }
  | .running _ | .coasting _ | .tripped _ | .lockedOut _ | .localControl | .absent => sl

/-- RUN_FB is taken released (R71): loss of the motor, unless TRIP_FB is asserted. -/
def runReleased (x : SlotCtx) (sl : Slot) : Slot :=
  match sl.st with
  | .running _ => if sl.tripFb.level then sl else countFault .trip (coastFrom x) sl
  | .starting _ _ | .stopped | .startWait _ | .coasting _ | .tripped _ | .lockedOut _
  | .localControl | .absent => sl

/-- TRIP_FB is taken asserted (R76, R77). -/
def tripAsserted (x : SlotCtx) (sl : Slot) : Slot :=
  match sl.st with
  | .starting _ _ | .running _ => countFault .trip (tripFrom x) sl
  | .stopped | .startWait _ | .coasting _ => { sl with st := tripFrom x }
  | .tripped _ | .lockedOut _ | .localControl | .absent => sl

/-- TRIP_FB is taken released: a TRIPPED slot whose hold has expired coasts (R78). -/
def tripReleased (x : SlotCtx) (sl : Slot) : Slot :=
  match sl.st with
  | .tripped none => { sl with st := coastFrom x }
  | .tripped (some _) | .starting _ _ | .running _ | .stopped | .startWait _ | .coasting _
  | .lockedOut _ | .localControl | .absent => sl

/-- The slot acts on an input whose level has just been taken (R61). -/
def actOnInput (x : SlotCtx) (i : SlotInput) (sl : Slot) : Slot :=
  match i with
  | .runFb => if sl.runFb.level then runAsserted x sl else runReleased x sl
  | .tripFb => if sl.tripFb.level then tripAsserted x sl else tripReleased x sl
  | .dirFb => sl

/-- The start timer expires: a failed start (R69). -/
def startExpired (x : SlotCtx) (sl : Slot) : Slot := countFault .startFail (coastFrom x) sl

/-- The coast timer expires: STUCK, or STOPPED acting on the held target (R74). -/
def coastExpired (x : SlotCtx) (sl : Slot) : Slot :=
  if sl.runFb.level then { sl with st := .lockedOut .stuck }
  else { sl with st := stoppedWith x sl.target }

/-- The trip hold expires (R78). -/
def tripHoldExpired (x : SlotCtx) (sl : Slot) : Slot :=
  if sl.tripFb.level then { sl with st := .tripped none } else { sl with st := coastFrom x }

/-- The grant reaches the slot: STARTING in the direction it then holds (R65, R67). -/
def granted (x : SlotCtx) (sl : Slot) : Slot :=
  match sl.st with
  | .startWait d => { sl with st := .starting d (x.now + startTime) }
  | .stopped | .starting _ _ | .running _ | .coasting _ | .tripped _ | .lockedOut _
  | .localControl | .absent => sl

/-! ## Feedback pins (R61) -/

/-- The feedback input `i` of a slot. -/
def Slot.input (sl : Slot) : SlotInput → SlotPin
  | .runFb => sl.runFb | .tripFb => sl.tripFb | .dirFb => sl.dirFb

/-- The feedback input `i` of a slot replaced. -/
def Slot.setInput (sl : Slot) (i : SlotInput) (p : SlotPin) : Slot :=
  match i with
  | .runFb => { sl with runFb := p }
  | .tripFb => { sl with tripFb := p }
  | .dirFb => { sl with dirFb := p }

/-- The pin comes to `v`: a change from the level last taken starts the filter, a return to it stops
it (R61).  Until the starting levels are taken, the level shown at reset release stands for it. -/
def pinChanged (now : Time) (beforeStart : Bool) (v : Bool) (p : SlotPin) : SlotPin :=
  if v = p.pin then p
  else
    let level := if beforeStart then p.start else p.level
    { p with pin := v, due := if v = level then none else some (now + filterTime) }

/-- The filter expires and the level is taken (R61). -/
def pinTaken (p : SlotPin) : SlotPin := { p with level := p.pin, due := none }

/-- The starting level is taken (R61): the pin's at reset release, whatever a filter has taken before it.  A pin
that changes at the very moment of release has its filter due at this very moment too.  Taken after the starting
level, as on an empty queue, the filter brings the new level; taken before it, it is over, and the release level
stands until the pin changes again: the model's choice (log 46). -/
def pinStarted (p : SlotPin) : SlotPin := { p with level := p.start }

/-- The pins of a slot as a reset leaves them: the levels are forgotten, the pins stand (R61). -/
def pinReset (p : SlotPin) : SlotPin := ⟨p.pin, false, false, none⟩

/-- A slot's starting levels are taken, and asserted inputs act as on an assertion (R61). -/
def startingLevels (x : SlotCtx) (sl : Slot) : Slot :=
  match sl.st with
  | .absent => sl
  | .stopped | .startWait _ | .starting _ _ | .running _ | .coasting _ | .tripped _
  | .lockedOut _ | .localControl =>
    let sl := { sl with runFb := pinStarted sl.runFb, tripFb := pinStarted sl.tripFb,
                        dirFb := pinStarted sl.dirFb }
    let sl := if sl.tripFb.level then tripAsserted x sl else sl
    if sl.runFb.level then runAsserted x sl else sl

/-! ## Maintenance (R83 to R86) -/

/-- The maintenance entry takes the slot: LOCAL, unless it is ABSENT or LOCKED_OUT (R84). -/
def intoLocal (sl : Slot) : Slot :=
  match sl.st with
  | .lockedOut _ | .absent => sl
  | .stopped | .startWait _ | .starting _ _ | .running _ | .coasting _ | .tripped _
  | .localControl => { sl with st := .localControl }

/-- The entry can be made: it is pending, the mode is QUIET or INCIDENT, and no slot is STARTING or
COASTING (R83). -/
def maintReady (s : State) : Bool :=
  s.fs.maintPending && (s.sj.mode == .quiet || s.sj.mode == .incident) &&
    !(s.fs.slots.any fun sl => isStartingOrCoasting sl.st)

/-- The maintenance entry (R84). -/
def enterMaintenance (s : State) : State :=
  setMode .maintenance
    { s with fs := { s.fs with slots := s.fs.slots.map intoLocal, maintPending := false } }

/-- The maintenance exit takes the slot back (R86).  An ABSENT slot takes no part (R63). -/
def outOfLocal (x : SlotCtx) (sl : Slot) : Slot :=
  match sl.st with
  | .localControl =>
    if sl.tripFb.level then { sl with faults := 0, st := tripFrom x }
    else if sl.runFb.level then
      let d : Direction := if sl.dirFb.level then .towardB else .towardA
      { sl with faults := 0, st := .running d, target := .run d }
    else { sl with faults := 0, st := coastFrom x }
  | .lockedOut _ =>
    if sl.tripFb.level then { sl with faults := 0, st := tripFrom x }
    else { sl with faults := 0, st := coastFrom x }
  | .absent => sl
  | .stopped | .startWait _ | .starting _ _ | .running _ | .coasting _ | .tripped _ =>
    { sl with faults := 0 }

/-- A pending entry is dropped, and a STOPPED slot that holds a RUN target enters START_WAIT (R83). -/
def dropMaintPending (s : State) : State :=
  { s with fs := { s.fs with
      maintPending := false
      slots := s.fs.slots.map fun sl =>
        match sl.st with
        | .stopped => { sl with st := stoppedWith ⟨s.now, false⟩ sl.target }
        | .startWait _ | .starting _ _ | .running _ | .coasting _ | .tripped _ | .lockedOut _
        | .localControl | .absent => sl } }

/-! ## Resets (R87) -/

/-- A slot while a reset holds the part: its drive is released, and an external reset (`keep`) keeps
its fault count and lockout. -/
def slotHeld (keep : Bool) (sl : Slot) : Slot :=
  { st := match sl.st with
      | .lockedOut c => if keep then .lockedOut c else .absent
      | .stopped | .startWait _ | .starting _ _ | .running _ | .coasting _ | .tripped _
      | .localControl | .absent => .absent
    target := .off
    faults := if keep then sl.faults else 0
    kept := if keep then sl.kept else none
    runFb := pinReset sl.runFb, tripFb := pinReset sl.tripFb, dirFb := pinReset sl.dirFb }

/-- The lockout a slot holds, seen or unseen. -/
def lockoutOf (sl : Slot) : Option LockCause :=
  match sl.st with
  | .lockedOut c => some c
  | .stopped | .startWait _ | .starting _ _ | .running _ | .coasting _ | .tripped _
  | .localControl | .absent => sl.kept

/-- A slot at reset release: ABSENT above FANS, else LOCKED_OUT where a lockout was kept, else
COASTING; the levels its pins show are remembered (R61, R63, R87). -/
def slotReleased (now : Time) (fitted : Bool) (sl : Slot) : Slot :=
  { sl with
    st := if fitted then
        match lockoutOf sl with
        | some c => .lockedOut c
        | none => .coasting (now + coastTime)
      else .absent
    target := .off
    kept := if fitted then none else lockoutOf sl
    runFb := { pinReset sl.runFb with start := sl.runFb.pin }
    tripFb := { pinReset sl.tripFb with start := sl.tripFb.pin }
    dirFb := { pinReset sl.dirFb with start := sl.dirFb.pin } }

end Sys2Proof.Machine
end

