-- ==== Sys2Proof/Machine/Planner.lean ====
section
/-! DEFINITION. The Thrust Planner (chapter 2): sides and eligibility, the preference order, demand and
the pace state, the own share, the choice of slots, the recompute, and adoption and yield. -/

namespace Sys2Proof.Machine

/-! ## Temperature classes and what the planner sees of a station -/

/-- The temperature classes (R36, R128). -/
inductive TempClass where
  | cool | warm | hot
  deriving DecidableEq, Repr

/-- The class of a temperature; an INVALID one has none (R128). -/
def tempClass : Option Int → Option TempClass
  | none => none
  | some t => if t < 60 then some .cool else if t < 200 then some .warm else some .hot

/-- The own record's planner fields (R117). -/
def ownView (s : State) : View :=
  { mode := s.sj.mode, fans := availableFans s, runA := runningCount .towardA s,
    runB := runningCount .towardB s, temp := s.su.heat.value, vel := s.su.velocity.value }

/-- The status part of a peer record that the planner counts: that of a LIVE record, not stale (R113). -/
def usableStatus (p : Peer) : Option StatusPart :=
  match p.liveness with
  | .live _ => if p.stale then none else p.status
  | .unknown | .silent => none

/-- What the planner sees of station `p` (R34, R113, R117). -/
def viewOf (s : State) (p : Nat) : Option View :=
  if p = s.station then some (ownView s) else (usableStatus (peerOf s.pt p)).map StatusPart.view

/-! ## Sides, eligibility, weight (R33 to R36) -/

/-- Station `p` stands upstream of the span (R33). -/
def upstream (c : Content) (p : Nat) : Bool :=
  match c.dir with
  | .towardA => c.hi < p
  | .towardB => p < c.lo

/-- Station `p` stands downstream of the span (R33). -/
def downstream (c : Content) (p : Nat) : Bool :=
  match c.dir with
  | .towardA => p < c.lo
  | .towardB => c.hi < p

/-- The exclusion distance is met: 100 m upstream, 400 m downstream (R35). -/
def farEnough (spacing : Nat) (c : Content) (p : Nat) : Bool :=
  (upstream c p && 100 ≤ distance p c * spacing) ||
    (downstream c p && 400 ≤ distance p c * spacing)

/-- Station `p` is eligible (R34). -/
def eligible (s : State) (c : Content) (p : Nat) : Bool :=
  match viewOf s p with
  | none => false
  | some v =>
    (v.mode == .quiet || v.mode == .incident) && farEnough s.spacing c p &&
      tempClass v.temp != some .hot

/-- The weight of an eligible station, in thrust quarters (R36). -/
def weight (v : View) : Nat :=
  match tempClass v.temp with
  | some .cool => 4
  | some .warm | some .hot | none => 3

/-- The capacity of an eligible station (R36). -/
def capacityOf (s : State) (p : Nat) : Nat :=
  match viewOf s p with
  | none => 0
  | some v => v.fans * weight v

/-! ## The preference order (R37) -/

/-- The stations `a + 1` to `a + n`. -/
def stationsFrom (a n : Nat) : List Nat := (List.range n).map fun i => a + 1 + i

/-- Every station of either side in the order of R37: upstream nearest first, then downstream farthest
first. -/
def sideOrder (count : Nat) (c : Content) : List Nat :=
  let below := stationsFrom 0 (c.lo - 1)
  let above := stationsFrom c.hi (count - c.hi)
  match c.dir with
  | .towardA => above ++ below
  | .towardB => below.reverse ++ above.reverse

/-- The preference order (R37). -/
def preferenceOrder (s : State) (c : Content) : List Nat :=
  (sideOrder s.count c).filter (eligible s c)

/-- A station's position in an order, counting from 0 (R37). -/
def rankIn (p : Nat) : List Nat → Option Nat
  | [] => none
  | q :: qs => if q = p then some 0 else (rankIn p qs).map (· + 1)

/-- The capacity of the plan (R36). -/
def planCapacity (s : State) (c : Content) : Nat :=
  ((preferenceOrder s c).map (capacityOf s)).sum

/-- The capacity of the stations ahead of `p` in an order (R53). -/
def capacityAhead (s : State) (p : Nat) (order : List Nat) : Nat :=
  ((order.takeWhile fun q => q != p).map (capacityOf s)).sum

/-! ## Demand, share and slots (R39, R53 to R55) -/

/-- The demand the planner uses (R39). -/
def demandOf (s : State) (g : Governing) : Nat :=
  match g.demand with
  | some d => d.d
  | none => s.initialD

/-- Division rounded up. -/
def ceilDiv (x y : Nat) : Nat := (x + (y - 1)) / y

/-- The own share (R53). -/
def ownShare (s : State) (g : Governing) : Nat :=
  let order := preferenceOrder s g.content
  match s.sj.mode, rankIn s.station order with
  | .incident, some _ =>
    min (availableFans s)
      (ceilDiv (demandOf s g - capacityAhead s s.station order) (weight (ownView s)))
  | _, _ => 0

/-- The state rank of a usable slot for a push toward `d` (R54). -/
def slotRank (d : Direction) : SlotState → Option Nat
  | .running x => some (if x = d then 0 else 4)
  | .starting x _ => some (if x = d then 0 else 4)
  | .startWait x => some (if x = d then 1 else 4)
  | .stopped => some 2
  | .coasting _ => some 3
  | .tripped _ | .lockedOut _ | .localControl | .absent => none

/-- The usable slots in the order of R54: by state rank, then by slot number. -/
def slotOrder (s : State) (d : Direction) : List SlotNo :=
  [0, 1, 2, 3, 4].flatMap fun r =>
    allSlots.filter fun k => slotRank d (s.slot k).st == some r

/-- The targets of a share of `n` fans toward `d` (R55). -/
def targetsFor (s : State) (d : Direction) (n : Nat) : Quad Target :=
  let chosen := (slotOrder s d).take n
  (Quad.all ()).mapNo fun k _ => if chosen.contains k then .run d else .off

/-- The targets are handed to the four slots (R55, R64). -/
def handTargets (ts : Quad Target) (s : State) : State :=
  { s with
    tp := { s.tp with targets := ts }
    fs := { s.fs with
      slots := s.fs.slots.mapNo fun k sl => handTarget s.slotCtx (ts.get k) sl } }

/-! ## The pace state (R40) -/

/-- The yield hold of a demand part runs. -/
def yieldRuns (g : Governing) : Bool := (g.demand.bind Demand.yieldDue).isSome

/-- The pace state that rank and yield hold call for (R32, R40). -/
def paceFor (mode : Mode) (g : Governing) (rank : Option Nat) : Pace :=
  match mode with
  | .joining | .configFault => .notPace
  | .quiet | .incident | .maintenance =>
    if yieldRuns g then .holding else if rank = some 0 then .pace else .notPace

/-- The demand part `id` holds is replaced, and the change timer starts when D changes value, by creation too
(R45).  A creation starts it whatever D is, the D_init planned with before included: at an entry to PACE R40
says so, at an adoption R45's word is taken for it (R49, log 45). -/
def writeDemand (g : Governing) (d : Demand) (s : State) : State :=
  { s with
    iu := { s.iu with records := setDemand s.iu.records g.id (some d) }
    tp := { s.tp with
      changeDue := if g.demand.map Demand.d = some d.d then s.tp.changeDue
        else some (s.now + changeTime) } }

/-- The station enters PACE: a demand part where there is none, and the update timer (R40, R41). -/
def enterPace (g : Governing) (s : State) : State :=
  let s := { s with tp := { s.tp with pace := .pace, updateDue := some (s.now + updateTime) } }
  match g.demand with
  | some _ => s
  | none => writeDemand g ⟨s.initialD, 0#8, s.station, none⟩ s

/-- The pace state becomes `p` (R40, R41). -/
def setPace (p : Pace) (g : Governing) (s : State) : State :=
  match p with
  | .pace => if s.tp.pace = .pace then s else enterPace g s
  | .notPace | .holding => { s with tp := { s.tp with pace := p, updateDue := none } }

/-- The class and rank handed to the Claim Unit (R38). -/
def classRankFor (c : Content) (p : Nat) (rank : Option Nat) : Option (Nat × Nat) :=
  rank.map fun r => (if upstream c p then 0 else 1, r)

/-- The recompute (R56): eligibility, order, class and rank, pace state, share and targets. -/
def recompute (s : State) : State :=
  match governing s with
  | none =>
    handTargets (.all .off)
      { s with tp := { s.tp with pace := .notPace, updateDue := none, classRank := none } }
  | some g =>
    let rank := rankIn s.station (preferenceOrder s g.content)
    handTargets (targetsFor s g.content.dir (ownShare s g))
      (setPace (paceFor s.sj.mode g rank) g
        { s with tp := { s.tp with classRank := classRankFor g.content s.station rank } })

/-! ## What calls for a recompute (R56) -/

/-- The kinds of liveness. -/
inductive LiveKind where
  | unknown | live | silent
  deriving DecidableEq, Repr

/-- The kind of a record's liveness. -/
def liveKind : Liveness → LiveKind
  | .unknown => .unknown | .live _ => .live | .silent => .silent

/-- What of a peer's record calls for a recompute when it changes: its liveness, and of a status part
that counts the mode, fans, running counts, temperature class and validity (R56, R115). -/
structure PeerTrigger where
  index : Nat
  kind : LiveKind
  counted : Option (Mode × Nat × Nat × Nat × Option TempClass)
  deriving DecidableEq, Repr

/-- The trigger of one peer record. -/
def peerTrigger (p : Peer) : PeerTrigger :=
  { index := p.index, kind := liveKind p.liveness,
    counted := (usableStatus p).map fun st =>
      (st.view.mode, st.view.fans, st.view.runA, st.view.runB, tempClass st.view.temp) }

/-- Everything whose change calls for a recompute (R56). -/
structure Trigger where
  mode : Mode
  fans : Nat
  cls : Option TempClass
  gov : Option (Id × Content)
  demand : Option Nat
  peers : List PeerTrigger
  deriving DecidableEq, Repr

/-- The triggers as they stand.  A record with no demand part stands here at D_init, the demand the planner
uses (R39), so an adoption that creates the part with D equal to D_init calls for no recompute, while it does
restart the change timer, since R45 counts a creation (`writeDemand`).  Whether D changes value there for the
recompute of R49 and R56 the spec leaves open: the model's choice (log 45). -/
def triggerOf (s : State) : Trigger :=
  { mode := s.sj.mode, fans := availableFans s, cls := tempClass s.su.heat.value,
    gov := (governing s).map fun g => (g.id, g.content),
    demand := (governing s).map (demandOf s),
    peers := s.pt.map peerTrigger }

/-- What the planner does at a change of governing incident or of its direction: the update timer stops
and the change timer starts again, or stops where none governs (R45, R57, R58). -/
def governingChanged (before : State) (s : State) : State :=
  match governing before, governing s with
  | some a, some b =>
    if a.id = b.id then
      if a.content.dir = b.content.dir then s
      else { s with tp := { s.tp with changeDue := some (s.now + changeTime) } }
    else
      { s with tp := { s.tp with
          pace := .notPace, updateDue := none, changeDue := some (s.now + changeTime) } }
  | none, some _ =>
    { s with tp := { s.tp with
        pace := .notPace, updateDue := none, changeDue := some (s.now + changeTime) } }
  | some _, none =>
    { s with tp := { s.tp with pace := .notPace, updateDue := none, changeDue := none } }
  | none, none => s

/-- The yield hold of the governing record has ended since `before` (R51, R56). -/
def yieldEnded (before : State) (s : State) : Bool :=
  match governing before, governing s with
  | some a, some b => a.id == b.id && yieldRuns a && !yieldRuns b
  | _, _ => false

/-- The planner recomputes where an event of R56 has come about since `before`; in CONFIG_FAULT it
recomputes nothing (R32). -/
def recomputeIfDue (before : State) (s : State) : State :=
  if s.sj.mode = .configFault then s
  else if triggerOf before = triggerOf s ∧ yieldEnded before s = false then s else recompute s

/-! ## The pace update (R42 to R46) -/

/-- The stations beyond `p`, going away from the span toward the portal on its side (R42). -/
def stationsBeyond (count : Nat) (c : Content) (p : Nat) : List Nat :=
  if c.hi < p then stationsFrom p (count - p) else (stationsFrom 0 (p - 1)).reverse

/-- The velocity set, by distance from the span (R42). -/
def velocitySet (s : State) (c : Content) : List Int :=
  let beyond := (stationsBeyond s.count c s.station).filterMap fun p =>
    (viewOf s p).bind View.vel
  (match s.su.velocity.value with | none => [] | some v => [v]) ++ beyond.take 2

/-- A reading along the push (R43). -/
def alongPush (d : Direction) (v : Int) : Int :=
  match d with
  | .towardB => v
  | .towardA => -v

/-- The error e = VT − u; none for an empty velocity set (R43). -/
def paceError (s : State) (c : Content) : Option Int :=
  match velocitySet s c with
  | [] => none
  | v :: vs =>
    some (s.targetV - (((v :: vs).map (alongPush c.dir)).sum).tdiv ((v :: vs).length : Int))

/-- The step found from the error (R44). -/
def paceStep (e : Int) : Int :=
  if -2 ≤ e ∧ e ≤ 2 then 0 else max (-8) (min 12 (e.tdiv 2))

/-- The realised thrust (R45). -/
def realisedThrust (s : State) (c : Content) : Nat :=
  ((preferenceOrder s c).map fun p =>
    match viewOf s p with
    | none => 0
    | some v => (match c.dir with | .towardA => v.runA | .towardB => v.runB) * weight v).sum

/-- The new demand of an applied step (R46). -/
def steppedDemand (d : Nat) (step : Int) (capacity : Nat) : Nat :=
  (max 8 (min ((max 8 capacity : Nat) : Int) ((d : Int) + step))).toNat

/-- The change timer runs: D last changed less than 30 s ago (R45). -/
def changeRuns (s : State) : Bool :=
  match s.tp.changeDue with
  | none => false
  | some t => s.now < t

/-- The D a pace update leaves: withheld by the settle test, stepped, or kept for want of readings (R43
to R46). -/
def updatedDemand (s : State) (g : Governing) (d : Nat) : Nat :=
  match paceError s g.content with
  | none => d
  | some e =>
    if realisedThrust s g.content < d ∧ changeRuns s = true then d
    else steppedDemand d (paceStep e) (planCapacity s g.content)

/-- The demand part the planner holds, or the one it would create (R40). -/
def heldDemand (s : State) (g : Governing) : Demand :=
  g.demand.getD ⟨s.initialD, 0#8, s.station, none⟩

/-- One pace update; the update timer starts again (R41 to R46), and stops where nothing governs. -/
def paceUpdate (s : State) : State :=
  match governing s with
  | none => { s with tp := { s.tp with updateDue := none } }
  | some g =>
    let d := heldDemand s g
    let t := writeDemand g
      { d with d := updatedDemand s g d.d, serial := d.serial + 1#8, source := s.station } s
    { t with tp := { t.tp with updateDue := some (t.now + updateTime) } }

/-! ## Adoption and yield (R47 to R51) -/

/-- Demand serial `a` is newer than `b` (R47). -/
def serialNewer (a b : BitVec 8) : Bool :=
  let d := (a - b).toNat
  1 ≤ d && d ≤ 127

/-- `p` ranks before `q` in the order, a station not in it ranking after all that are (R48). -/
def ranksBefore (order : List Nat) (p q : Nat) : Bool :=
  match rankIn p order, rankIn q order with
  | some a, some b => a < b
  | some _, none => true
  | none, _ => false

/-- Whether the demand of `sender` is adopted (R48). -/
def adopts (order : List Nat) (held : Option Demand) (sender : Nat) (serial : BitVec 8) : Bool :=
  match held with
  | none => true
  | some d =>
    serialNewer serial d.serial ||
      (serial == d.serial && sender != d.source && ranksBefore order sender d.source)

/-- `p` stands better placed than `q`: nearer on the same side, or upstream of a downstream one (R50). -/
def betterPlaced (c : Content) (p q : Nat) : Bool :=
  (upstream c p && upstream c q && distance p c < distance q c) ||
    (downstream c p && downstream c q && distance p c < distance q c) ||
    (upstream c p && downstream c q)

/-- The demand part an adoption writes; the yield hold is kept, or set by a yield (R49, R50). -/
def adoptedDemand (held : Option Demand) (sender : Nat) (b : GovBlock) (yieldDue : Option Time) :
    Demand :=
  { d := max 8 (min 1920 b.demand), serial := b.serial, source := sender,
    yieldDue := match yieldDue with
      | some t => some t
      | none => held.bind Demand.yieldDue }

/-- A yield: the sender's figure is taken, the yield hold starts and the station is HOLDING, its update
timer stopped (R50, R51). -/
def yieldTo (g : Governing) (sender : Nat) (b : GovBlock) (s : State) : State :=
  let t := writeDemand g (adoptedDemand g.demand sender b (some (s.now + yieldTime))) s
  { t with tp := { t.tp with pace := .holding, updateDue := none } }

/-- The planner takes a stored STATUS from `sender` (R48 to R51, R115). -/
def considerDemand (sender : Nat) (st : StatusPart) (s : State) : State :=
  match st.gov, governing s with
  | some b, some g =>
    if b.pace = true ∧ (resolve s.iu.records b.id).map Rec.id = some g.id then
      if s.tp.pace ≠ .notPace ∧ betterPlaced g.content sender s.station = true then
        yieldTo g sender b s
      else if adopts (preferenceOrder s g.content) g.demand sender b.serial then
        writeDemand g (adoptedDemand g.demand sender b none) s
      else s
    else s
  | _, _ => s

/-- The yield hold of record `id` is removed from its demand part (R51). -/
def removeYield (id : Id) (s : State) : State :=
  setRecords (s.iu.records.map fun r =>
    match r.st with
    | .active c (some d) =>
      if r.id == id then { r with st := .active c (some { d with yieldDue := none }) } else r
    | .active _ none | .absorbed _ | .ended _ _ => r) s

/-- The moment the yield hold of record `id` ends. -/
def yieldDueOf (rs : List Rec) (id : Id) : Option Time :=
  match (findRec rs id).map Rec.st with
  | some (.active _ (some d)) => d.yieldDue
  | some (.active _ none) | some (.absorbed _) | some (.ended _ _) | none => none

end Sys2Proof.Machine
end

