-- ==== Sys2Proof/Machine/Claims.lean ====
section
/-! DEFINITION. The Claim Unit (chapter 4): the key, the claim view, the claim test, placement, settling,
renewal and the end of a claim. -/

namespace Sys2Proof.Machine

/-- The key comparison: the lower key is the better claim (R90). -/
def keyBetter (a b : Key) : Bool :=
  a.cls < b.cls || (a.cls == b.cls &&
    (a.rank < b.rank || (a.rank == b.rank && a.serial.toNat < b.serial.toNat)))

/-- The own claim's settle timer is running, so that an entry made now is LATE (R97). -/
def settleRuns (s : State) : Bool :=
  match s.cu.own with
  | .settling _ (some _) => true
  | .settling _ none | .granted _ _ | .none => false

/-- The claim view replaced. -/
def setView (v : List ClaimEntry) (s : State) : State := { s with cu := { s.cu with view := v } }

/-- The view with a new entry, the entry heard longest ago evicted where 16 are held (R94). -/
def addEntry (e : ClaimEntry) (v : List ClaimEntry) : List ClaimEntry :=
  (if maxClaims ≤ v.length then v.drop 1 else v) ++ [e]

/-- A checked CLAIM from `src` is applied to the view (R94): a renewal refreshes its entry, any other
replaces the entry or makes one. -/
def applyClaim (src : Nat) (c : Claim) (s : State) : State :=
  let others := s.cu.view.filter fun e => e.station != src
  let fresh : ClaimEntry := ⟨src, c, s.now, settleRuns s⟩
  match s.cu.view.find? fun e => e.station == src with
  | some e =>
    if e.claim.number = c.number then setView (others ++ [{ e with heardAt := s.now }]) s
    else setView (others ++ [fresh]) s
  | none => setView (addEntry fresh s.cu.view) s

/-- A CLAIM body handed on by Frame Dispatch (R94). -/
def receiveClaim (src : Nat) (b : Octets) (s : State) : State :=
  if natAt b 0 = s.sect then
    match readClaim s.count b with
    | none => raiseFlag .lineErrors s
    | some c => applyClaim src c s
  else s

/-- A WITHDRAW or RELEASE body handed on by Frame Dispatch (R95). -/
def receiveClaimEnd (src : Nat) (b : Octets) (s : State) : State :=
  if natAt b 0 = s.sect then
    match readSlot (natAt b 1) with
    | none => raiseFlag .lineErrors s
    | some _ =>
      setView (s.cu.view.filter fun e => !(e.station == src && e.claim.number == octetAt b 2)) s
  else s

/-- The lowest-numbered slot in START_WAIT (R65). -/
def waitingSlot (s : State) : Option SlotNo :=
  allSlots.find? fun k => isStartWait (s.slot k).st

/-- The claim test: the slot, class and rank of the CLAIM to place, where all conditions of R98 hold. -/
def claimTest (s : State) : Option (SlotNo × Nat × Nat) :=
  match s.cu.own, waitingSlot s, s.tp.classRank with
  | .none, some k, some (cls, rank) =>
    if s.sj.mode = .incident ∧ (governing s).isSome = true ∧ s.fs.maintPending = false ∧
        s.cu.view.length < 2 ∧ s.cu.spacingDue = none
    then some (k, cls, rank) else none
  | _, _, _ => none

/-- A CLAIM is placed for slot `k` (R99): the number from the counter, the key, SETTLING, the spacing
timer. -/
def placeClaim (k : SlotNo) (cls rank : Nat) (s : State) : State :=
  let c : Claim := ⟨k, s.cu.counter, ⟨cls, rank, s.sj.serial⟩⟩
  place (.claim s.sect c)
    { s with cu := { s.cu with
        counter := s.cu.counter + 1#8, own := .settling c none,
        spacingDue := some (s.now + claimSpacingTime) } }

/-- The claim test is made, and where it is met the CLAIM is placed (R98, R99). -/
def testClaim (s : State) : State :=
  match claimTest s with
  | none => s
  | some (k, cls, rank) => placeClaim k cls rank s

/-- A SETTLING claim is withdrawn: WITHDRAW, NONE, LATE entries EARLY (R97, R101). -/
def withdrawClaim (c : Claim) (s : State) : State :=
  place (.withdraw s.sect c.slot c.number) (setOwn .none (allEarly s))

/-- The start of a GRANTED claim is over: NONE, and RELEASE in every mode but CONFIG_FAULT (R103). -/
def releaseClaim (c : Claim) (s : State) : State :=
  place (.release s.sect c.slot c.number) (setOwn .none s)

/-- The own claim follows its slot: a SETTLING claim whose slot has left START_WAIT is withdrawn, and a
GRANTED claim whose slot has left STARTING is released (R101, R103, R104). -/
def followSlot (s : State) : State :=
  match s.cu.own with
  | .settling c _ =>
    if isStartWait (s.slot c.slot).st && s.sj.mode != .quiet then s else withdrawClaim c s
  | .granted c _ => if isStarting (s.slot c.slot).st then s else releaseClaim c s
  | .none => s

/-- The claims ahead of the own claim (R100). -/
def claimsAhead (c : Claim) (v : List ClaimEntry) : Nat :=
  (v.filter fun e => !e.late || keyBetter e.claim.key c.key).length

/-- The settle timer expires (R100): a grant to the slot, or a WITHDRAW. -/
def settle (c : Claim) (s : State) : State :=
  if claimsAhead c s.cu.view < 2 ∧ isStartWait (s.slot c.slot).st = true then
    setSlot c.slot (granted s.slotCtx (s.slot c.slot))
      (setOwn (.granted c (some (s.now + renewalTime))) (allEarly s))
  else withdrawClaim c s

/-- The Line Interface reports a CLAIM sent: the settle timer starts, if the own claim is SETTLING with
its number (R91, R99, R155). -/
def claimSent (b : Body) (s : State) : State :=
  match claimNumber b, s.cu.own with
  | some n, .settling c none =>
    if c.number = n then setOwn (.settling c (some (s.now + settleTime))) s else s
  | _, _ => s

/-- The Claim Unit at entry to CONFIG_FAULT: the view is emptied and a SETTLING claim dropped, a GRANTED
one standing until its start ends (R93, R104). -/
def claimsInFault (s : State) : State :=
  { s with cu := { s.cu with
      view := []
      own := match s.cu.own with
        | .granted c t => .granted c t
        | .settling _ _ | .none => .none } }

end Sys2Proof.Machine
end

