-- ==== Sys2Proof/Machine/Reports.lean ====
section
/-! DEFINITION. The own record (R117) and Bulletin Assembly (R140, R143, R144): the STATUS the station
sends, and which changes ask for an early one. -/

namespace Sys2Proof.Machine

/-- The governing block of the own record (R59, R117). -/
def ownGov (s : State) : Option GovBlock :=
  (governing s).map fun g =>
    { id := g.id, digest := digest g.id g.content, demand := demandOf s g,
      serial := match g.demand with | some d => d.serial | none => 0#8,
      pace := s.tp.pace == .pace }

/-- Rising order of origin, and for one origin rising numeric order of seq (R140). -/
def entryBefore (a b : Entry) : Bool :=
  a.id.origin < b.id.origin || (a.id.origin == b.id.origin && a.id.seq.toNat < b.id.seq.toNat)

/-- An entry put in its place. -/
def insertEntry (e : Entry) : List Entry → List Entry
  | [] => [e]
  | x :: xs => if entryBefore e x then e :: x :: xs else x :: insertEntry e xs

/-- The list entry of a record (R30). -/
def entryOf (r : Rec) : Entry :=
  ⟨r.id, match r.st with
    | .active _ _ => .active | .absorbed _ => .absorbed | .ended _ _ => .ended⟩

/-- The list entries: every held record, in the order of R140 (R30). -/
def ownEntries (s : State) : List Entry :=
  s.iu.records.foldr (fun r es => insertEntry (entryOf r) es) []

/-- The own record's status part (R117). -/
def ownStatus (s : State) : StatusPart := ⟨ownView s, ownGov s, ownEntries s⟩

/-- The STATUS body as the own record stands (R140). -/
def ownStatusBody (s : State) : Body := .status s.sj.serial (ownStatus s) (healthOctet s)

/-- A STATUS is placed, and the presence and STATUS spacing timers start (R143). -/
def placeStatus (s : State) : State :=
  place (ownStatusBody s)
    { s with ba := { presenceDue := some (s.now + presencePeriod s.sj.mode),
                     spacingDue := some (s.now + statusSpacingTime), early := false } }

/-- The fields whose change asks for an early STATUS (R144). -/
structure Report where
  mode : Mode
  fans : Nat
  runA : Nat
  runB : Nat
  health : BitVec 8
  gov : Option GovBlock
  entries : List Entry
  cls : Option TempClass
  deriving DecidableEq, Repr

/-- The reported fields as they stand. -/
def reportOf (s : State) : Report :=
  { mode := s.sj.mode, fans := availableFans s, runA := runningCount .towardA s,
    runB := runningCount .towardB s, health := healthOctet s, gov := ownGov s,
    entries := ownEntries s, cls := tempClass s.su.heat.value }

/-- STATUS is sent in this mode (R143). -/
def sendsStatus : Mode → Bool
  | .quiet | .incident | .maintenance => true
  | .joining | .configFault => false

/-- The early request is set. -/
def holdEarly (s : State) : State := { s with ba := { s.ba with early := true } }

/-- A STATUS is placed at once; the flag that its own refusal by a full queue raises is again a change,
and is held (R144). -/
def placeEarly (s : State) : State :=
  let t := placeStatus s
  if healthOctet t = healthOctet s then t else holdEarly t

/-- An early STATUS where a reported field differs from what it was before the event (R144). -/
def requestEarly (before : State) (s : State) : State :=
  if sendsStatus s.sj.mode then
    if reportOf before = reportOf s then s
    else
      match s.ba.spacingDue with
      | none => placeEarly s
      | some _ => holdEarly s
  else s

end Sys2Proof.Machine
end

