-- ==== Sys2Proof/Machine/Outputs.lean ====
section
/-! DEFINITION. The output pins (chapter 9, R60, R123, R149), each read off the state that other blocks
own, and the flash patterns of the slot fault outputs (R163). -/

namespace Sys2Proof.Machine

/-- The signs (R159). -/
inductive Sign where
  | signA | signB
  deriving DecidableEq, Repr

/-- The sign lit for station `p` beside span and direction `c` (R159). -/
def signFor (p : Nat) (c : Content) : Sign :=
  if p < c.lo then .signA
  else if c.hi < p then .signB
  else
    match c.dir with
    | .towardA => .signB
    | .towardB => .signA

/-- The sign lit; none while no governing incident is held, in CONFIG_FAULT and in reset (R159, R164). -/
def signLit (s : State) : Option Sign :=
  if s.sj.held = true ∨ s.sj.mode = .configFault then none
  else (governing s).map fun g => signFor s.station g.content

/-- SMOKE (R160). -/
def smokeLit (s : State) : Bool :=
  if s.sj.held = true ∨ s.sj.mode = .configFault then false
  else
    match governing s with
    | none => false
    | some g =>
      downstream g.content s.station ||
        (match s.su.opacity.value with | some v => 50 ≤ v | none => false)

/-- The INCIDENT output (R161). -/
def incidentOut (s : State) : Bool := !s.sj.held && s.sj.mode == .incident

/-- The HEALTH output (R161). -/
def healthOut (s : State) : Bool :=
  !s.sj.held && (s.sj.mode == .configFault || healthOctet s != 0#8)

/-- The drive asserted on slot `k`'s starter: RUN_A for TOWARD_A, RUN_B for TOWARD_B (R60, R164). -/
def driveOut (s : State) (k : SlotNo) : Option Direction :=
  if s.sj.held then none else driveOf (s.slot k).st

/-- TXEN: asserted while a frame is being sent (R149). -/
def txen (s : State) : Bool := s.li.sending.isSome

/-- TXD: while a frame is being sent, the bit of it the clock has come to, its characters back to back;
otherwise 1 (R149). -/
def txd (s : State) : Bool :=
  match s.li.sending with
  | none => true
  | some x =>
    let n := (s.now - x.since) / s.bit
    match (frameOctets s.station x.frame.body)[n / 10]? with
    | none => true
    | some o => (characterBits o).getLsbD (n % 10)

/-- The sensor select asserted: that of the transaction in progress until its end, when it is released (R123). -/
def selectOut (s : State) : Option Sensor :=
  match s.su.transaction with
  | none => none
  | some t => if s.now < t.ends then some t.sensor else none

/-- The moment SNS_CLK rises for the `k`-th time in a transaction: 24 rising edges 10 µs apart, the first 50 µs
after the select (R123). -/
def Transaction.risingEdge (t : Transaction) (k : Nat) : Time := t.ends - 240 + 10 * k

/-- The level of SNS_CLK: it rests low, and from 50 µs after the select to the end of the transaction gives 24
pulses at 100 kHz (R123), each high in the first half of its 10 µs and low in the second (log 33). -/
def sensorClock (s : State) : Bool :=
  match s.su.transaction with
  | none => false
  | some t =>
    decide (t.risingEdge 0 ≤ s.now ∧ s.now < t.ends) && decide ((s.now - t.risingEdge 0) % 10 < 5)

/-- The CMD_CONFLICT output: the held conflict of R20, dark until the first command after JOINING (R164).
A conflict still held at that command shows from then on (log 34). -/
def conflictOut (s : State) : Bool := s.no.commanded && s.no.conflict.lit

/-- Every output pin the part drives by its state. -/
structure Pins where
  drive : Quad (Option Direction)
  sign : Option Sign
  smoke : Bool
  incident : Bool
  health : Bool
  cmdAccept : Bool
  cmdRefused : Bool
  cmdConflict : Bool
  slotFault : Quad Bool
  txEnable : Bool
  txData : Bool
  select : Option Sensor
  clock : Bool
  deriving DecidableEq, Repr

/-- The output pins. -/
def pinsOf (s : State) : Pins :=
  { drive := (Quad.all ()).mapNo fun k _ => driveOut s k
    sign := signLit s
    smoke := smokeLit s
    incident := incidentOut s
    health := healthOut s
    cmdAccept := s.no.acceptDue.isSome
    cmdRefused := s.no.refusedDue.isSome
    cmdConflict := conflictOut s
    slotFault := s.no.flash.map Flash.lit
    txEnable := txen s
    txData := txd s
    select := selectOut s
    clock := sensorClock s }

/-! ## Flash patterns -/

/-- The patterns of a slot fault output (R163). -/
inductive Pattern where
  | dark | steady | slow | fast | blip
  deriving DecidableEq, Repr

/-- The pattern that shows a slot state (R163). -/
def patternOf : SlotState → Pattern
  | .lockedOut .startFail => .steady
  | .lockedOut .trip => .slow
  | .lockedOut .stuck => .fast
  | .tripped _ => .blip
  | .stopped | .startWait _ | .starting _ _ | .running _ | .coasting _ | .localControl
  | .absent => .dark

/-- How long a pattern's lit or dark phase lasts; none where it does not change (R163). -/
def phaseTime (p : Pattern) (lit : Bool) : Option Time :=
  match p with
  | .dark | .steady => none
  | .slow => some (500 * ms)
  | .fast => some (125 * ms)
  | .blip => if lit then some (100 * ms) else some (1900 * ms)

/-- A pattern begins with its lit phase (R163). -/
def flashBegin (now : Time) (p : Pattern) : Flash :=
  match p with
  | .dark => ⟨false, none⟩
  | .steady | .slow | .fast | .blip => ⟨true, (phaseTime p true).map (now + ·)⟩

/-- The phase timer expires: lit becomes dark, dark becomes lit (R163). -/
def flashToggle (now : Time) (p : Pattern) (f : Flash) : Flash :=
  ⟨!f.lit, (phaseTime p (!f.lit)).map (now + ·)⟩

/-- A slot fault output begins its slot's pattern anew when the slot's state calls for another one. -/
def flashFor (now : Time) (before after : Slot) (f : Flash) : Flash :=
  if patternOf before.st = patternOf after.st then f else flashBegin now (patternOf after.st)

/-- The four slot fault outputs follow their slots (R163). -/
def followFlash (before : State) (s : State) : State :=
  { s with no := { s.no with
      flash := s.no.flash.mapNo fun k f => flashFor s.now (before.slot k) (s.slot k) f } }

/-- Both push inputs are released, as debounced. -/
def pushReleased (s : State) : Bool := !s.su.pushA.level && !s.su.pushB.level

/-- CMD_CONFLICT, its minimum time over, goes dark once neither push input is asserted (R20, R162). -/
def testConflictLamp (s : State) : State :=
  if s.no.conflict.due = none ∧ pushReleased s = true then
    { s with no := { s.no with conflict := ⟨false, none⟩ } }
  else s

end Sys2Proof.Machine
end

