-- ==== Sys2Proof/Machine/Closing.lean ====
section
/-! DEFINITION. What every event has in common once its own rule has acted: the station mode, the
planner's recompute, the own claim, a pending maintenance entry, the claim test, the flash patterns and
the early STATUS all follow at the same event (R28, R56, R83, R98, R101, R103, R144).  Also entry to
CONFIG_FAULT (R119, R171). -/

namespace Sys2Proof.Machine

/-- The Incident Unit sets the mode between QUIET and INCIDENT by the list (R28). -/
def followList (s : State) : State :=
  match s.sj.mode with
  | .quiet | .incident => setMode (if anyActive s then .incident else .quiet) s
  | .joining | .maintenance | .configFault => s

/-- The planner acts on what the event changed since `before`, and the own claim follows its slot. -/
def planned (before : State) (s : State) : State := followSlot (recomputeIfDue before s)

/-- A pending maintenance entry is made once no slot is STARTING or COASTING (R83, R84), and the planner
recomputes for the change of mode. -/
def enterIfReady (s : State) : State :=
  if maintReady s then planned s (enterMaintenance s) else s

/-- Everything that follows an event's own effect at the same event, `before` being the state the event
found. -/
def follow (before : State) (s : State) : State :=
  followFlash before
    (testClaim (enterIfReady (planned before (governingChanged before (followList s)))))

/-- The whole of an event: what follows it, then the early STATUS its changes ask for (R144). -/
def closeEvent (before : State) (s : State) : State := requestEarly before (follow before s)

/-- The station enters CONFIG_FAULT (R6, R32, R88, R93, R104, R108, R119, R143, R158, R162, R171). -/
def enterConfigFault (s : State) : State :=
  let s := claimsInFault s
  handTargets (.all .off)
    { s with
      sj := { s.sj with mode := .configFault, joinDue := none }
      iu := { s.iu with
        records := [], reannounce := [], incidentSent := [], endSent := [], endRepeats := [],
        heldAlarm := false }
      tp := { s.tp with pace := .notPace, updateDue := none, changeDue := none, classRank := none }
      fs := { s.fs with maintPending := false }
      pt := []
      li := { s.li with tx := [] }
      ba := { presenceDue := none, spacingDue := none, early := false }
      no := { s.no with acceptDue := none, refusedDue := none, conflict := ⟨false, none⟩ } }

/-! ## The forms of a command -/

/-- An outcome of this block. -/
abbrev Outcome := Host.Outcome State Fault Refusal

/-- A command that waits for a timer: where the timer is stopped there is no such event and nothing
changes; otherwise the clock comes to its expiry and `body` acts (log 1, log 2). -/
def onTimer (due : Option Time) (body : State → State) (s : State) : Outcome :=
  match due with
  | none => .next s
  | some t => .next (closeEvent s (body (reachTime t s)))

/-- A command that occurs where `ready` holds; elsewhere there is no such event and nothing changes. -/
def onReady (ready : Bool) (body : State → State) (s : State) : Outcome :=
  if ready then .next (closeEvent s (body s)) else .next s

end Sys2Proof.Machine
end

