-- ==== Sys2Proof/Machine/ClaimEvents.lean ====
section
/-! DEFINITION. The meanings of the Claim Unit's commands (chapter 4). -/

namespace Sys2Proof.Machine

/-- CLAIM_PLACEMENT (R98, R99): the CLAIM is placed where the claim test is met. -/
def execClaimPlacement (s : State) : Outcome := onReady (claimTest s).isSome testClaim s

/-- CLAIM_SPACING_EXPIRY (R98): the timer stops, and the claim test that follows is made again. -/
def execClaimSpacingExpiry (s : State) : Outcome :=
  onTimer s.cu.spacingDue (fun s => { s with cu := { s.cu with spacingDue := none } }) s

/-- SETTLE_EXPIRY (R100). -/
def execSettleExpiry (s : State) : Outcome :=
  match s.cu.own with
  | .settling c due => onTimer due (settle c) s
  | .granted _ _ | .none => .next s

/-- The renewal of a GRANTED claim: the timer is over and the same CLAIM is placed again (R102). -/
def renewClaim (c : Claim) (s : State) : State :=
  place (.claim s.sect c) (setOwn (.granted c none) s)

/-- CLAIM_RENEWAL (R102). -/
def execClaimRenewal (s : State) : Outcome :=
  match s.cu.own with
  | .granted c due => onTimer due (renewClaim c) s
  | .settling _ _ | .none => .next s

/-- The moment the entry of `station` reaches an age of 12 s (R96). -/
def entryDue (v : List ClaimEntry) (station : Nat) : Option Time :=
  (v.find? fun e => e.station == station).map fun e => e.heardAt + claimEntryTime

/-- CLAIM_ENTRY_EXPIRY (R96). -/
def execClaimEntryExpiry (station : Nat) (s : State) : Outcome :=
  onTimer (entryDue s.cu.view station)
    (fun s => setView (s.cu.view.filter fun e => e.station != station) s) s

end Sys2Proof.Machine
end

