-- ==== Sys2Proof/Machine/IncidentEvents.lean ====
section
/-! DEFINITION. The meanings of the Incident Unit's timer commands (R21, R23, R26). -/

namespace Sys2Proof.Machine

/-- The re-announce of `id` waits until 1 s after the last INCIDENT for it (R26). -/
def waitRate (id : Id) (s : State) : State :=
  match timeOf s.iu.incidentSent id with
  | none => s
  | some t => setReannounce (putTime s.iu.reannounce id (t + rateTime)) s

/-- The pending re-announce of `id` is forgotten. -/
def dropReannounce (id : Id) (s : State) : State := setReannounce (dropTime s.iu.reannounce id) s

/-- A defer, or a rate wait, of `id` has ended (R26): cancelled where the record it resolves to is not
ACTIVE, put off while the rate of one INCIDENT a second forbids it, else placed. -/
def endDefer (id : Id) (s : State) : State :=
  match resolvedContent s.iu.records id with
  | none => dropReannounce id s
  | some _ =>
    if withinRate s.iu.incidentSent id s.now then waitRate id s
    else placeIncident id (dropReannounce id s)

/-- REANNOUNCE (R26). -/
def execReannounce (id : Id) (s : State) : Outcome :=
  onTimer (timeOf s.iu.reannounce id) (endDefer id) s

/-- The list without its first time held for `id`. -/
def dropFirst (id : Id) : List IdTime → List IdTime
  | [] => []
  | x :: xs => if x.id = id then xs else x :: dropFirst id xs

/-- A stand-down repeat of `id` is sent, whatever the list then holds for the id (R21).  R23 has the station
hold nothing for an id whose ENDED record has been removed or evicted, and leaves open whether the repeats
still due go on: that they do, even where the id is ACTIVE again, is the model's choice (log 47). -/
def repeatEnd (id : Id) (s : State) : State :=
  placeEnd id { s with iu := { s.iu with endRepeats := dropFirst id s.iu.endRepeats } }

/-- END_REPEAT (R21). -/
def execEndRepeat (id : Id) (s : State) : Outcome :=
  onTimer (timeOf s.iu.endRepeats id) (repeatEnd id) s

/-- The ending timer of the ENDED record `id` (R23). -/
def endingDue (rs : List Rec) (id : Id) : Option Time :=
  match (findRec rs id).map Rec.st with
  | some (.ended _ t) => some t
  | some (.active _ _) | some (.absorbed _) | none => none

/-- ENDING_TIMER_EXPIRY (R23): the record is removed. -/
def execEndingTimerExpiry (id : Id) (s : State) : Outcome :=
  onTimer (endingDue s.iu.records id)
    (fun s => setRecords (s.iu.records.filter fun r => r.id != id) s) s

end Sys2Proof.Machine
end

