-- ==== Sys2Proof/Machine/Line.lean ====
section
/-! DEFINITION. The Line Interface (chapter 8): receiving, getting onto the line, collision and back-off,
with the meanings of its commands. -/

namespace Sys2Proof.Machine

/-! ## Receiving (R150, R151) -/

/-- A frame in assembly is discarded, and the receiver is unsynchronised (R150). -/
def discardAssembly (s : State) : State :=
  raiseFlag .lineErrors { s with li := { s.li with assembly := [], synced := false } }

/-- A good frame arrives at the receive queue, or is lost to an overrun (R151). -/
def arriveFrame (f : Octets) (s : State) : State :=
  let s := { s with li := { s.li with assembly := [] } }
  if s.li.rx.length < maxRx then { s with li := { s.li with rx := s.li.rx ++ [f] } }
  else raiseFlag .rxOverrun s

/-- What a character read while the receiver listens comes to (R150). -/
inductive Heard where
  /-- The receiver is unsynchronised: the character is no part of a frame. -/
  | ignored
  /-- The octet is taken and the frame still lacks octets. -/
  | assembled
  /-- The last CRC octet has arrived and the CRC matches. -/
  | arrived
  /-- Over-long, a stop bit of 0, or a CRC that does not match. -/
  | discarded
  deriving DecidableEq, Repr

/-- What the character `o` with this stop bit comes to (R150). -/
def hear (l : Li) (o : Octet) (stop : Bool) : Heard :=
  let f := l.assembly ++ [o]
  if !l.synced then .ignored
  else if !stop then .discarded
  else if f.length < 3 then .assembled
  else if 120 < frameLength f then .discarded
  else if f.length < 3 + frameLength f + 2 then .assembled
  else if frameCrcOk f then .arrived else .discarded

/-- The end of a character whose start bit comes now: ten bit times on (R149). -/
def characterEnd (s : State) : Time := s.now + 10 * s.bit

/-- A character is read whole, from its start bit, which ends the idle time, to its stop bit, from whose
end the idle count runs again (R154); nothing else happens in between (log 25).  A stop bit that read 0 ends
as one that read 1 does: the line is taken to read 1 from its end (log 43). -/
def characterRead (s : State) : State :=
  { s with now := characterEnd s, li := { s.li with idleSince := characterEnd s } }

/-- A character read on RXD, by what it comes to (R150). -/
def takeCharacter (o : Octet) (stop : Bool) (s : State) : State :=
  let t := characterRead s
  match hear s.li o stop with
  | .ignored => t
  | .assembled => { t with li := { t.li with assembly := s.li.assembly ++ [o] } }
  | .arrived => arriveFrame (s.li.assembly ++ [o]) t
  | .discarded => discardAssembly t

/-- The receiver takes characters: the part is out of reset and not sending (R150). -/
def receiving (s : State) : Bool := !s.sj.held && s.li.sending.isNone

/-- The moment the line has been idle for 2 character times (R150). -/
def truncationDue (s : State) : Option Time :=
  if receiving s && !s.li.assembly.isEmpty then some (s.li.idleSince + 20 * s.bit) else none

/-- RX_TRUNCATION (R150). -/
def execRxTruncation (s : State) : Outcome := onTimer (truncationDue s) discardAssembly s

/-- The moment the line has been idle for 16 bit times, while the receiver is unsynchronised (R150). -/
def syncDue (s : State) : Option Time :=
  if receiving s && !s.li.synced then some (s.li.idleSince + 16 * s.bit) else none

/-- RECEIVER_SYNC (R150). -/
def execReceiverSync (s : State) : Outcome :=
  onTimer (syncDue s) (fun s => { s with li := { s.li with synced := true } }) s

/-! ## Getting onto the line (R154, R157) -/

/-- The defer of the frame to be sent next, in bit times (R154, R157). -/
def deferBits (s : State) (attempts : Nat) : Nat :=
  if attempts = 0 then (s.station % 8) * 4
  else 20 * (1 + ((s.sj.serial.extractLsb' 0 8).toNat + attempts) % 16)

/-- The station may send in this mode (R158). -/
def sendsFrames : Mode → Bool
  | .quiet | .incident | .maintenance => true
  | .joining | .configFault => false

/-- The moment the send of the head frame starts (R154), now or earlier where the line has been idle long
enough: the SEND_START is then due at once (log 49). -/
def sendDue (s : State) : Option Time :=
  match s.li.tx with
  | [] => none
  | f :: _ =>
    if receiving s && sendsFrames s.sj.mode then
      some (s.li.idleSince + (16 + deferBits s f.attempts) * s.bit)
    else none

/-- The head frame leaves the queue and begins to be sent; a frame of another station still in assembly
is discarded (R150, R152, R154). -/
def startSend (s : State) : State :=
  match s.li.tx with
  | [] => s
  | f :: fs =>
    let s := if s.li.assembly.isEmpty then s else discardAssembly s
    { s with li := { s.li with tx := fs, sending := some ⟨f, s.now⟩, synced := false } }

/-- SEND_START (R154).  A frame placed on a line idle long enough starts at the event that places it, and R154
does not say whether before or after that event's later placements, with their count of 10 and their supersede
rules.  The model's choice is after all of them: the send starts in this command of its own, at the same moment
(log 49). -/
def execSendStart (s : State) : Outcome := onTimer (sendDue s) startSend s

/-- The own first start bit falls in the bit time that has begun: the wait is over and nothing but the start
itself is left (R154, log 42). -/
def sendsNow (s : State) : Bool :=
  match sendDue s with
  | none => false
  | some t => t ≤ s.now

/-- A character whose start bit comes now.  Where the own first start bit falls in the same bit time the
station does not see the other's before its own: it sends, and its attempt is read back, not received (R150,
R154, log 42).  Otherwise the start bit ends the wait, and the character is taken where `ready` holds. -/
def onCharacter (ready : Bool) (o : Octet) (stop : Bool) (s : State) : Outcome :=
  if sendsNow s then onTimer (sendDue s) startSend s else onReady ready (takeCharacter o stop) s

/-- CHARACTER_RECEIVED (R150, R154). -/
def execCharacterReceived (o : Octet) (stop : Bool) (s : State) : Outcome :=
  onCharacter (receiving s) o stop s

/-- FRAME_ARRIVAL (R150, R151, R154): the character that completes a good frame. -/
def execFrameArrival (o : Octet) (s : State) : Outcome :=
  onCharacter (receiving s && hear s.li o true == .arrived) o true s

/-- RX_FRAME_DISCARD (R150, R154): a character that discards the frame in assembly. -/
def execRxFrameDiscard (o : Octet) (stop : Bool) (s : State) : Outcome :=
  onCharacter (receiving s && hear s.li o stop == .discarded) o stop s

/-- The frame being sent as octets (R138). -/
def sendingOctets (s : State) (x : Sending) : Octets := frameOctets s.station x.frame.body

/-- The line falls idle at the end of the own last stop bit, and the attempt is over (R155, R156). -/
def endAttempt (s : State) : State :=
  { s with li := { s.li with sending := none, idleSince := s.now, synced := false } }

/-- The moment `n` characters of the frame being sent have gone out (R149). -/
def sentBy (s : State) (x : Sending) (n : Nat) : Time := x.since + 10 * n * s.bit

/-- SEND_SUCCESS (R155): a sent CLAIM is reported to the Claim Unit. -/
def execSendSuccess (s : State) : Outcome :=
  match s.li.sending with
  | none => .next s
  | some x =>
    onTimer (some (sentBy s x (sendingOctets s x).length))
      (fun s => claimSent x.frame.body (endAttempt s)) s

/-! ## Collision (R156) -/

/-- The queue with the first frame that takes `b`'s place given at least `n` attempts; none where no
waiting frame supersedes `b` (R156). -/
def supersededIn (b : Body) (n : Nat) : List TxFrame → Option (List TxFrame)
  | [] => none
  | f :: fs =>
    if takesPlaceOf f.body b then some ({ f with attempts := max f.attempts n } :: fs)
    else (supersededIn b n fs).map (f :: ·)

/-- Whether the body is a STATUS. -/
def isStatus (b : Body) : Bool := bodyClass b == 2

/-- A collided frame returns to the head of its class, unless 10 frames wait (R152, R156). -/
def returnFrame (f : TxFrame) (s : State) : State :=
  if maxTx ≤ s.li.tx.length then refuseFrame f.body s else setTx (insertHead f s.li.tx) s

/-- What becomes of a collided frame whose attempt count has risen to `f.attempts`: a STATUS at a count
of 8 is dropped with TX_CONGESTED in every mode (R145, R156, log 26); in CONFIG_FAULT any other frame is
dropped (R158). -/
def collided (f : TxFrame) (s : State) : State :=
  if isStatus f.body ∧ 8 ≤ f.attempts then raiseFlag .txCongested s
  else if s.sj.mode = .configFault then s
  else
    match supersededIn f.body f.attempts s.li.tx with
    | some q => setTx q s
    | none =>
      match claimNumber f.body with
      | some n =>
        if s.li.tx.any (isWithdrawNo n) then setTx (removeFirst (isWithdrawNo n) s.li.tx) s
        else returnFrame f s
      | none => returnFrame f s

/-- COLLISION (R156): character `k` is read back differently from what was sent; where it reads back as
sent there is no collision and nothing changes. -/
def execCollision (k : Nat) (readBack : BitVec 10) (s : State) : Outcome :=
  match s.li.sending with
  | none => .next s
  | some x =>
    match (sendingOctets s x)[k]? with
    | none => .next s
    | some o =>
      if readBack = characterBits o then .next s
      else
        onTimer (some (sentBy s x (k + 1)))
          (fun s => collided { x.frame with attempts := x.frame.attempts + 1 } (endAttempt s)) s

end Sys2Proof.Machine
end

