-- ==== Sys2Proof/Machine/Peers.lean ====
section
/-! DEFINITION. The Peer Table (chapter 5) and Frame Dispatch (R146 to R148), with the meanings of the
commands by which Frame Dispatch takes a frame, and of PEER_SILENT. -/

namespace Sys2Proof.Machine

/-! ## The table -/

/-- The table with the record `p` put at its index. -/
def putPeer (p : Peer) : List Peer → List Peer
  | [] => [p]
  | x :: xs =>
    if p.index < x.index then p :: x :: xs
    else if p.index = x.index then p :: xs
    else x :: putPeer p xs

/-- The record of `p` replaced. -/
def setPeer (p : Peer) (s : State) : State := { s with pt := putPeer p s.pt }

/-- A good frame from peer `p` is taken: LIVE, age 0; status part and stale mark stand (R109, R113). -/
def refreshPeer (p : Nat) (s : State) : State :=
  setPeer { peerOf s.pt p with index := p, liveness := .live s.now } s

/-- A STATUS from peer `p` is stored: the status part replaced whole, the stale mark cleared (R115). -/
def storeStatus (p : Nat) (st : StatusPart) (s : State) : State :=
  setPeer { peerOf s.pt p with index := p, status := some st, stale := false } s

/-- The presence period expected of a peer, by the mode it last sent (R112). -/
def peerPeriod (p : Peer) : Time :=
  match p.status with
  | some st => presencePeriod st.view.mode
  | none => 2 * sec

/-- The moment a LIVE peer's age reaches four of its presence periods (R112). -/
def silentDue (p : Peer) : Option Time :=
  match p.liveness with
  | .live t => some (t + 4 * peerPeriod p)
  | .unknown | .silent => none

/-- A peer turns SILENT: its age is discarded and its status part marked stale (R112). -/
def silencePeer (p : Nat) (s : State) : State :=
  setPeer
    { peerOf s.pt p with
      index := p, liveness := .silent, stale := (peerOf s.pt p).status.isSome } s

/-! ## STATUS taken -/

/-- The duplicate test on a STATUS with the own index (R118 to R120). -/
def duplicateTest (serial : BitVec 32) (s : State) : State :=
  if serial = s.sj.serial then s
  else if s.sj.serial.toNat < serial.toNat then enterConfigFault s
  else raiseFlag .duplicateIndex s

/-- A STATUS body handed on by Frame Dispatch: the duplicate test, or checks, storage and the two
hand-offs (R114 to R118). -/
def receiveStatus (src : Nat) (b : Octets) (s : State) : State :=
  if src = s.station then
    if statusLengthOk b then duplicateTest (statusSerial b) s else raiseFlag .lineErrors s
  else
    match readStatus s.count b with
    | none => raiseFlag .lineErrors s
    | some st => considerDemand src st (takeStatus st (storeStatus src st s))

/-! ## Frame Dispatch -/

/-- A frame's body is handed to its block by kind (R147 step 5). -/
def handOff (f : Octets) (s : State) : State :=
  match kindOf f with
  | .status => receiveStatus (frameSource f) (frameBody f) s
  | .incident => receiveIncident (frameBody f) s
  | .ending => receiveEnding (frameBody f) s
  | .claim => receiveClaim (frameSource f) (frameBody f) s
  | .withdraw | .release => receiveClaimEnd (frameSource f) (frameBody f) s
  | .invalid => s

/-- What Frame Dispatch does with a frame it has taken, in the order of R147; in CONFIG_FAULT the frame
is dropped (R148). -/
def dispatch (f : Octets) (s : State) : State :=
  if s.sj.mode = .configFault then s
  else if kindOf f = .invalid then raiseFlag .lineErrors s
  else if !sourceOk s.count f then raiseFlag .lineErrors s
  else
    let s := if frameSource f = s.station then s else refreshPeer (frameSource f) s
    if fixedLengthOk f then handOff f s else raiseFlag .lineErrors s

/-- The receive queue replaced. -/
def setRx (q : List Octets) (s : State) : State := { s with li := { s.li with rx := q } }

/-- Frame Dispatch takes the frame at the head of the receive queue, where it is one of kind `k`;
otherwise there is no such event and nothing changes (R146, log 2).  In CONFIG_FAULT too, where R148 makes
none of R147's checks, `classify` names the command that takes the frame (log 40). -/
def takeFrame (k : FrameKind) (s : State) : Outcome :=
  match s.li.rx with
  | [] => .next s
  | f :: fs =>
    if classify s.count f = k then .next (closeEvent s (dispatch f (setRx fs s))) else .next s

/-! ## Meanings -/

/-- STATUS_RECEIVED (R115, R118). -/
def execStatusReceived (s : State) : Outcome := takeFrame .status s

/-- INCIDENT_RECEIVED (R15, R17). -/
def execIncidentReceived (s : State) : Outcome := takeFrame .incident s

/-- END_RECEIVED (R22). -/
def execEndReceived (s : State) : Outcome := takeFrame .ending s

/-- CLAIM_RECEIVED (R94). -/
def execClaimReceived (s : State) : Outcome := takeFrame .claim s

/-- WITHDRAW_RECEIVED (R95). -/
def execWithdrawReceived (s : State) : Outcome := takeFrame .withdraw s

/-- RELEASE_RECEIVED (R95). -/
def execReleaseReceived (s : State) : Outcome := takeFrame .release s

/-- INVALID_FRAME_TAKEN (R110, R147): a frame of bad version, kind, source or fixed length. -/
def execInvalidFrameTaken (s : State) : Outcome := takeFrame .invalid s

/-- PEER_SILENT (R112): the peer turns SILENT, and the burnt presumption is tested (R11). -/
def execPeerSilent (p : Nat) (s : State) : Outcome :=
  onTimer (silentDue (peerOf s.pt p)) (fun s => grown (silencePeer p s)) s

end Sys2Proof.Machine
end

