-- ==== Sys2Proof/Machine/PlanEvents.lean ====
section
/-! DEFINITION. The meanings of the Thrust Planner's timer commands (chapter 2). -/

namespace Sys2Proof.Machine

/-- PACE_UPDATE (R41 to R46). -/
def execPaceUpdate (s : State) : Outcome := onTimer s.tp.updateDue paceUpdate s

/-- CHANGE_TIMER_EXPIRY (R45). -/
def execChangeTimerExpiry (s : State) : Outcome :=
  onTimer s.tp.changeDue (fun s => { s with tp := { s.tp with changeDue := none } }) s

/-- YIELD_HOLD_EXPIRY (R51): the hold leaves the demand part, and where its record governs the recompute
that follows re-evaluates the rank. -/
def execYieldHoldExpiry (id : Id) (s : State) : Outcome :=
  onTimer (yieldDueOf s.iu.records id) (removeYield id) s

end Sys2Proof.Machine
end

