-- ==== Sys2Proof/Machine/Sensing.lean ====
section
/-! DEFINITION. The Sensing Unit (chapter 6): polling rounds, held readings, the heat alarm and the
discrete inputs, with the meanings of its commands. -/

namespace Sys2Proof.Machine

/-- The Sensing Unit replaced. -/
def setSu (u : Su) (s : State) : State := { s with su := u }

/-! ## Readings (R126) -/

/-- A held reading takes a sample (R126). -/
def Reading.take (r : Reading) (sample : Option Int) : Reading :=
  match sample with
  | some v => ⟨some v, 0⟩
  | none =>
    match r.value with
    | none => ⟨none, 10⟩
    | some v => if r.missing < 9 then ⟨some v, r.missing + 1⟩ else ⟨none, 10⟩

/-- A missing sample that leaves its reading INVALID raises SENSOR_INVALID (R127). -/
def noteInvalid (sample : Option Int) (after : Reading) (s : State) : State :=
  if sample = none ∧ after.value = none then raiseFlag .sensorInvalid s else s

/-! ## The heat alarm (R129 to R131) -/

/-- The history takes the youngest sample and gives up the oldest (R129). -/
def historyTake (sample : Option Int) (h : List (Option Int)) : List (Option Int) :=
  sample :: h.take 10

/-- Test 1: the current sample and the one before it are both 70 °C or more (R130). -/
def sustainedHeat (h : List (Option Int)) : Bool :=
  match h[0]?, h[1]? with
  | some (some a), some (some b) => 70 ≤ a && 70 ≤ b
  | _, _ => false

/-- Test 2: 45 °C or more, and 15 °C or more above the sample 10 s earlier (R130). -/
def rapidRise (h : List (Option Int)) : Bool :=
  match h[0]?, h[10]? with
  | some (some a), some (some b) => 45 ≤ a && b + 15 ≤ a
  | _, _ => false

/-- Test 3: 60 °C or more with a held opacity of 50 or more (R130). -/
def hotSmoke (h : List (Option Int)) (opacity : Option Int) : Bool :=
  match h[0]?, opacity with
  | some (some a), some o => 60 ≤ a && 50 ≤ o
  | _, _ => false

/-- Whether an ARMED alarm leaves ARMED at this sample (R130). -/
def heatTests (h : List (Option Int)) (opacity : Option Int) : Bool :=
  sustainedHeat h || rapidRise h || hotSmoke h opacity

/-- The re-arm count of an ALARMED alarm takes a sample; at 30 the alarm is ARMED (R131). -/
def rearm (cool : Nat) (sample : Option Int) : HeatAlarm :=
  match sample with
  | none => .alarmed 0
  | some v => if v < 60 then (if 30 ≤ cool + 1 then .armed else .alarmed (cool + 1)) else .alarmed 0

/-- The heat alarm at a temperature sample that has joined the history; an alarm that trips hands one
alarm event to the Incident Unit (R130, R131). -/
def heatAlarmStep (sample : Option Int) (s : State) : State :=
  match s.su.alarm with
  | .armed =>
    if heatTests s.su.history s.su.opacity.value then
      alarmEvent (setSu { s.su with alarm := .alarmed 0 } s)
    else s
  | .alarmed cool => setSu { s.su with alarm := rearm cool sample } s

/-- A sample of one sensor is taken (R124 to R131). -/
def takeSample (sensor : Sensor) (sample : Option Int) (s : State) : State :=
  match sensor with
  | .heat =>
    let r := s.su.heat.take sample
    heatAlarmStep sample (noteInvalid sample r
      (setSu { s.su with heat := r, history := historyTake sample s.su.history } s))
  | .opacity =>
    let r := s.su.opacity.take sample
    noteInvalid sample r (setSu { s.su with opacity := r } s)
  | .velocity =>
    let r := s.su.velocity.take sample
    noteInvalid sample r (setSu { s.su with velocity := r } s)

/-- The sensor polled next in a round (R123). -/
def nextSensor : Sensor → Option Sensor
  | .heat => some .opacity
  | .opacity => some .velocity
  | .velocity => none

/-- The select of `sensor` is asserted and its transaction runs (R123); `none` ends the round. -/
def beginTransaction (sensor : Option Sensor) (s : State) : State :=
  setSu { s.su with transaction := sensor.map fun x => ⟨x, s.now + transactionTime⟩ } s

/-- A polling round starts with the heat sensor's transaction, and the next round is due at `next` (R123). -/
def beginRound (next : Option Time) (s : State) : State :=
  beginTransaction (some .heat) (setSu { s.su with roundDue := next } s)

/-- The first round starts at the release of reset, and the next is due 1 s later (R123). -/
def firstRound (s : State) : State := beginRound (some (s.now + roundTime)) s

/-- A later round starts.  The one after it is due 1 s after this one was, so that a round begun late
shifts no other (R123). -/
def nextRound (s : State) : State := beginRound (s.su.roundDue.map (· + roundTime)) s

/-- Eight bits in the order sampled, most significant first, as one octet (R123). -/
def octetOfBits (bit : Nat → Bool) : Octet :=
  (List.range 8).foldl (fun o k => (o <<< 1) ||| (if bit k then 1#8 else 0#8)) 0#8

/-- The `n`-th octet of a transaction, of reading high, reading low and check: the levels `line` shows on
SNS_DI at eight rising edges (R123). -/
def sampledOctet (line : Time → Bool) (t : Transaction) (n : Nat) : Octet :=
  octetOfBits fun k => line (t.risingEdge (8 * n + k))

/-- The sample of a transaction, from what SNS_DI shows at its 24 rising edges (R123, R124). -/
def transactionSample (line : Time → Bool) (t : Transaction) : Instr :=
  .sensorSample (sampledOctet line t 0) (sampledOctet line t 1) (sampledOctet line t 2)

/-- SENSOR_ROUND (R123). -/
def execSensorRound (s : State) : Outcome := onTimer s.su.roundDue nextRound s

/-- SENSOR_SAMPLE (R124): the transaction in progress ends with its sample, and the next sensor's
follows straight after. -/
def execSensorSample (high low check : Octet) (s : State) : Outcome :=
  match s.su.transaction with
  | none => .next s
  | some t =>
    onTimer (some t.ends)
      (fun s => takeSample t.sensor (sampleValue t.sensor high low check)
        (beginTransaction (nextSensor t.sensor) s)) s

/-! ## The discrete inputs (R133 to R136) -/

/-- The discrete input `i`. -/
def Su.input (u : Su) : Input → Debounced
  | .manualAlarm => u.manualAlarm
  | .pushA => u.pushA
  | .pushB => u.pushB
  | .standDown => u.standDown
  | .maint => u.maint

/-- The discrete input `i` replaced. -/
def Su.setInput (u : Su) (i : Input) (d : Debounced) : Su :=
  match i with
  | .manualAlarm => { u with manualAlarm := d }
  | .pushA => { u with pushA := d }
  | .pushB => { u with pushB := d }
  | .standDown => { u with standDown := d }
  | .maint => { u with maint := d }

/-- The pin comes to `v`: a change starts the debounce, a return to the debounced level cancels it
(R133).  In reset nothing is debounced. -/
def inputChanged (held : Bool) (now : Time) (v : Bool) (d : Debounced) : Debounced :=
  if v = d.pin then d
  else { d with pin := v, due := if held || v == d.level then none else some (now + debounceTime) }

/-- The new level has held for 1 s and becomes the debounced level (R133). -/
def inputTaken (d : Debounced) : Debounced := { d with level := d.pin, due := none }

/-- A command's edge by mode: ignored in JOINING and CONFIG_FAULT (R19, R21, R137). -/
def commandEdge (act : State → State) (s : State) : State :=
  match s.sj.mode with
  | .quiet | .incident | .maintenance => act (noteCommand s)
  | .joining | .configFault => s

/-- The maintenance exit (R86). -/
def exitMaintenance (s : State) : State :=
  setMode (if anyActive s then .incident else .quiet)
    { s with fs := { s.fs with slots := s.fs.slots.map (outOfLocal s.slotCtx) } }

/-- A maintenance entry becomes pending (R83). -/
def pendMaintenance (s : State) : State := { s with fs := { s.fs with maintPending := true } }

/-- The debounced MAINT level is reported (R83, R86, R136). -/
def maintReported (asserted : Bool) (s : State) : State :=
  match asserted, s.sj.mode with
  | true, .quiet | true, .incident => pendMaintenance s
  | false, .maintenance => exitMaintenance s
  | false, .quiet | false, .incident => if s.fs.maintPending then dropMaintPending s else s
  | true, .joining | true, .maintenance | true, .configFault | false, .joining
  | false, .configFault => s

/-- What the debounced level of an input, just changed, hands on (R134 to R136). -/
def inputActs (i : Input) (s : State) : State :=
  match i, (s.su.input i).level with
  | .manualAlarm, true => alarmEvent s
  | .pushA, true => commandEdge (directionCommand .towardA s.su.pushB.level) s
  | .pushB, true => commandEdge (directionCommand .towardB s.su.pushA.level) s
  | .standDown, true => commandEdge standDown s
  | .maint, v => maintReported v s
  | .pushA, false | .pushB, false => testConflictLamp s
  | .manualAlarm, false | .standDown, false => s

/-- INPUT_LEVEL_CHANGE (R133). -/
def execInputLevelChange (i : Input) (asserted : Bool) (s : State) : Outcome :=
  .next (setSu (s.su.setInput i (inputChanged s.sj.held s.now asserted (s.su.input i))) s)

/-- DEBOUNCE_EXPIRY (R133, R134). -/
def execDebounceExpiry (i : Input) (s : State) : Outcome :=
  onTimer (s.su.input i).due
    (fun s => inputActs i (setSu (s.su.setInput i (inputTaken (s.su.input i))) s)) s

end Sys2Proof.Machine
end

