-- ==== Sys2Proof/Machine/Resets.lean ====
section
/-! DEFINITION. The two resets, reset release, and the end of JOINING (R164 to R170). -/

namespace Sys2Proof.Machine

/-- A discrete input in reset: its pin stands, its debounced level is lost (R133). -/
def inputReset (d : Debounced) : Debounced := ⟨d.pin, false, none⟩

/-- The part is held in reset: every output released and every block cleared, the pins, the strap latch
and the factory serial standing; an external reset (`keep`) keeps fault counts and lockouts (R168). -/
def holdReset (keep : Bool) (s : State) : State :=
  { State.reset with
    pending := s.pending
    now := s.now
    sj := { State.reset.sj with straps := s.sj.straps, serial := s.sj.serial }
    fs := { State.reset.fs with slots := s.fs.slots.map (slotHeld keep) }
    su := { State.reset.su with
      manualAlarm := inputReset s.su.manualAlarm, pushA := inputReset s.su.pushA,
      pushB := inputReset s.su.pushB, standDown := inputReset s.su.standDown,
      maint := inputReset s.su.maint } }

/-- POWER_ON_RESET (R168). -/
def execPowerOnReset (s : State) : Outcome := .next (holdReset false s)

/-- EXTERNAL_RESET (R168). -/
def execExternalReset (s : State) : Outcome := .next (holdReset true s)

/-- A discrete input at reset release: one asserted then starts its debounce (R133). -/
def inputReleased (now : Time) (d : Debounced) : Debounced :=
  ⟨d.pin, false, if d.pin then some (now + debounceTime) else none⟩

/-- Reset release (R165, R166, R168): the straps are latched and checked, the slots start, the first
polling round starts, and the station enters JOINING or CONFIG_FAULT. -/
def releaseReset (straps : BitVec 28) (s : State) : State :=
  let slots := s.fs.slots.mapNo fun k sl =>
    slotReleased s.now (decide (slotNumber k ≤ strapFans straps)) sl
  firstRound
    { s with
      sj := { s.sj with
        held := false, straps := straps,
        mode := if strapsValid straps then .joining else .configFault,
        joinDue := if strapsValid straps then some (s.now + joinTime) else none }
      fs := { s.fs with slots := slots, maintPending := false, initDue := some (s.now + filterTime) }
      su := { s.su with
        manualAlarm := inputReleased s.now s.su.manualAlarm,
        pushA := inputReleased s.now s.su.pushA, pushB := inputReleased s.now s.su.pushB,
        standDown := inputReleased s.now s.su.standDown,
        maint := inputReleased s.now s.su.maint }
      li := { s.li with idleSince := s.now }
      no := { s.no with flash := slots.map fun sl => flashBegin s.now (patternOf sl.st) } }

/-- RESET_RELEASE (R165): where no reset holds the part there is no release and nothing changes. -/
def execResetRelease (straps : BitVec 28) (s : State) : Outcome :=
  if s.sj.held then .next (releaseReset straps s) else .next s

/-- Phases 1 and 2 of the end of JOINING: the mode by the list, and the held alarm event (R170). -/
def leaveJoining (s : State) : State :=
  let s := setMode (if anyActive s then .incident else .quiet)
    { s with sj := { s.sj with joinDue := none } }
  if s.iu.heldAlarm then actOnAlarm { s with iu := { s.iu with heldAlarm := false } } else s

/-- Phase 5: MAINT debounced asserted makes an entry pending (R136, R170). -/
def maintAtJoin (s : State) : State := if s.su.maint.level then pendMaintenance s else s

/-- JOIN_TIMER_EXPIRY (R170): phases 1 and 2, the recompute, the first STATUS, then MAINT. -/
def execJoinTimerExpiry (s : State) : Outcome :=
  match s.sj.joinDue with
  | none => .next s
  | some t =>
    let u := placeEarly (follow s (leaveJoining (reachTime t s)))
    .next (closeEvent u (maintAtJoin u))

end Sys2Proof.Machine
end

