-- ==== Sys2Proof/Machine/SlotEvents.lean ====
section
/-! DEFINITION. The meanings of the slot commands: feedback inputs and the slot timers (chapter 3), and
the maintenance entry (R84). -/

namespace Sys2Proof.Machine

/-- Slot `k` acts by `f`. -/
def slotActs (k : SlotNo) (f : SlotCtx → Slot → Slot) (s : State) : State :=
  setSlot k (f s.slotCtx (s.slot k)) s

/-- Whether a slot is ABSENT, so that its inputs are not read (R61, R63). -/
def isAbsent : SlotState → Bool
  | .absent => true
  | .stopped | .startWait _ | .starting _ _ | .running _ | .coasting _ | .tripped _ | .lockedOut _
  | .localControl => false

/-- The pin of an input that is not read (R61, R63). -/
def pinOnly (v : Bool) (p : SlotPin) : SlotPin := { p with pin := v }

/-- SLOT_INPUT_CHANGE (R61): the filter starts, or is cancelled; in reset, and for an ABSENT slot, only
the pin changes. -/
def execSlotInputChange (k : SlotNo) (i : SlotInput) (asserted : Bool) (s : State) : Outcome :=
  .next (setSlot k
    ((s.slot k).setInput i
      (if s.sj.held || isAbsent (s.slot k).st then pinOnly asserted ((s.slot k).input i)
       else pinChanged s.now s.fs.initDue.isSome asserted ((s.slot k).input i))) s)

/-- SLOT_INPUT_FILTER_EXPIRY (R61): the level is taken and the slot acts on it by its state. -/
def execSlotInputFilterExpiry (k : SlotNo) (i : SlotInput) (s : State) : Outcome :=
  onTimer ((s.slot k).input i).due
    (slotActs k fun x sl => actOnInput x i (sl.setInput i (pinTaken (sl.input i)))) s

/-- The starting levels of every slot are taken (R61). -/
def takeStartingLevels (s : State) : State :=
  { s with fs := { s.fs with
      initDue := none, slots := s.fs.slots.map (startingLevels s.slotCtx) } }

/-- SLOT_INPUT_INITIAL_LEVELS (R61). -/
def execSlotInputInitialLevels (s : State) : Outcome := onTimer s.fs.initDue takeStartingLevels s

/-- The start timer of a slot (R67). -/
def startDue (sl : Slot) : Option Time :=
  match sl.st with
  | .starting _ t => some t
  | .stopped | .startWait _ | .running _ | .coasting _ | .tripped _ | .lockedOut _
  | .localControl | .absent => none

/-- The coast timer of a slot (R72). -/
def coastDue (sl : Slot) : Option Time :=
  match sl.st with
  | .coasting t => some t
  | .stopped | .startWait _ | .starting _ _ | .running _ | .tripped _ | .lockedOut _
  | .localControl | .absent => none

/-- The trip-hold timer of a slot (R76). -/
def tripHoldDue (sl : Slot) : Option Time :=
  match sl.st with
  | .tripped h => h
  | .stopped | .startWait _ | .starting _ _ | .running _ | .coasting _ | .lockedOut _
  | .localControl | .absent => none

/-- START_TIMER_EXPIRY (R69). -/
def execStartTimerExpiry (k : SlotNo) (s : State) : Outcome :=
  onTimer (startDue (s.slot k)) (slotActs k startExpired) s

/-- COAST_TIMER_EXPIRY (R74). -/
def execCoastTimerExpiry (k : SlotNo) (s : State) : Outcome :=
  onTimer (coastDue (s.slot k)) (slotActs k coastExpired) s

/-- TRIP_HOLD_EXPIRY (R78). -/
def execTripHoldExpiry (k : SlotNo) (s : State) : Outcome :=
  onTimer (tripHoldDue (s.slot k)) (slotActs k tripHoldExpired) s

/-- MAINTENANCE_ENTRY (R84), where R83 lets it be made. -/
def execMaintenanceEntry (s : State) : Outcome := onReady (maintReady s) enterMaintenance s

end Sys2Proof.Machine
end

