-- ==== Sys2Proof/Machine/StatusEvents.lean ====
section
/-! DEFINITION. The meanings of Bulletin Assembly's, the health flags' and Niche Outputs' timer commands
(R143 to R145, R162, R163). -/

namespace Sys2Proof.Machine

/-- PRESENCE_TIMER_EXPIRY (R143). -/
def execPresenceTimerExpiry (s : State) : Outcome := onTimer s.ba.presenceDue placeStatus s

/-- The STATUS spacing timer is over, and a held request is served (R144). -/
def endSpacing (s : State) : State :=
  let t := { s with ba := { s.ba with spacingDue := none } }
  if s.ba.early then placeStatus t else t

/-- STATUS_SPACING_EXPIRY (R144). -/
def execStatusSpacingExpiry (s : State) : Outcome := onTimer s.ba.spacingDue endSpacing s

/-- HEALTH_FLAG_EXPIRY (R145). -/
def execHealthFlagExpiry (f : TimedFlag) (s : State) : Outcome :=
  onTimer (s.health.get f) (fun s => { s with health := s.health.set f none }) s

/-- The timer of a command lamp (R162). -/
def lampDue (l : Lamp) (s : State) : Option Time :=
  match l with
  | .accept => s.no.acceptDue
  | .refused => s.no.refusedDue
  | .conflict => s.no.conflict.due

/-- A command lamp's timer expires (R162). -/
def lampExpired (l : Lamp) (s : State) : State :=
  match l with
  | .accept => { s with no := { s.no with acceptDue := none } }
  | .refused => { s with no := { s.no with refusedDue := none } }
  | .conflict =>
    testConflictLamp { s with no := { s.no with conflict := ⟨s.no.conflict.lit, none⟩ } }

/-- CMD_LAMP_EXPIRY (R162). -/
def execCmdLampExpiry (l : Lamp) (s : State) : Outcome := onTimer (lampDue l s) (lampExpired l) s

/-- SLOT_FLT_PHASE (R163). -/
def execSlotFltPhase (k : SlotNo) (s : State) : Outcome :=
  onTimer (s.no.flash.get k).due
    (fun s => { s with no := { s.no with
      flash := s.no.flash.set k
        (flashToggle s.now (patternOf (s.slot k).st) (s.no.flash.get k)) } }) s

end Sys2Proof.Machine
end

