-- ==== Sys2Proof/Machine/Dispatch.lean ====
section
/-! DEFINITION. One arm per command: the meaning it has. -/

namespace Sys2Proof.Machine

def exec (i : Instr) (s : State) : Host.Outcome State Fault Refusal :=
  match i with
  | .powerOnReset => Sys2Proof.Machine.execPowerOnReset s
  | .externalReset => Sys2Proof.Machine.execExternalReset s
  | .resetRelease straps => Sys2Proof.Machine.execResetRelease straps s
  | .joinTimerExpiry => Sys2Proof.Machine.execJoinTimerExpiry s
  | .sensorRound => Sys2Proof.Machine.execSensorRound s
  | .sensorSample high low check => Sys2Proof.Machine.execSensorSample high low check s
  | .inputLevelChange n asserted => Sys2Proof.Machine.execInputLevelChange n asserted s
  | .debounceExpiry n => Sys2Proof.Machine.execDebounceExpiry n s
  | .maintenanceEntry => Sys2Proof.Machine.execMaintenanceEntry s
  | .slotInputChange k n asserted => Sys2Proof.Machine.execSlotInputChange k n asserted s
  | .slotInputFilterExpiry k n => Sys2Proof.Machine.execSlotInputFilterExpiry k n s
  | .slotInputInitialLevels => Sys2Proof.Machine.execSlotInputInitialLevels s
  | .startTimerExpiry k => Sys2Proof.Machine.execStartTimerExpiry k s
  | .coastTimerExpiry k => Sys2Proof.Machine.execCoastTimerExpiry k s
  | .tripHoldExpiry k => Sys2Proof.Machine.execTripHoldExpiry k s
  | .paceUpdate => Sys2Proof.Machine.execPaceUpdate s
  | .changeTimerExpiry => Sys2Proof.Machine.execChangeTimerExpiry s
  | .yieldHoldExpiry id => Sys2Proof.Machine.execYieldHoldExpiry id s
  | .incidentReceived => Sys2Proof.Machine.execIncidentReceived s
  | .endReceived => Sys2Proof.Machine.execEndReceived s
  | .reannounce id => Sys2Proof.Machine.execReannounce id s
  | .endRepeat id => Sys2Proof.Machine.execEndRepeat id s
  | .endingTimerExpiry id => Sys2Proof.Machine.execEndingTimerExpiry id s
  | .statusReceived => Sys2Proof.Machine.execStatusReceived s
  | .peerSilent p => Sys2Proof.Machine.execPeerSilent p s
  | .claimReceived => Sys2Proof.Machine.execClaimReceived s
  | .withdrawReceived => Sys2Proof.Machine.execWithdrawReceived s
  | .releaseReceived => Sys2Proof.Machine.execReleaseReceived s
  | .invalidFrameTaken => Sys2Proof.Machine.execInvalidFrameTaken s
  | .claimPlacement => Sys2Proof.Machine.execClaimPlacement s
  | .claimSpacingExpiry => Sys2Proof.Machine.execClaimSpacingExpiry s
  | .settleExpiry => Sys2Proof.Machine.execSettleExpiry s
  | .claimRenewal => Sys2Proof.Machine.execClaimRenewal s
  | .claimEntryExpiry station => Sys2Proof.Machine.execClaimEntryExpiry station s
  | .presenceTimerExpiry => Sys2Proof.Machine.execPresenceTimerExpiry s
  | .statusSpacingExpiry => Sys2Proof.Machine.execStatusSpacingExpiry s
  | .healthFlagExpiry f => Sys2Proof.Machine.execHealthFlagExpiry f s
  | .sendStart => Sys2Proof.Machine.execSendStart s
  | .sendSuccess => Sys2Proof.Machine.execSendSuccess s
  | .collision k readBack => Sys2Proof.Machine.execCollision k readBack s
  | .receiverSync => Sys2Proof.Machine.execReceiverSync s
  | .frameArrival o => Sys2Proof.Machine.execFrameArrival o s
  | .rxFrameDiscard o stop => Sys2Proof.Machine.execRxFrameDiscard o stop s
  | .rxTruncation => Sys2Proof.Machine.execRxTruncation s
  | .cmdLampExpiry l => Sys2Proof.Machine.execCmdLampExpiry l s
  | .slotFltPhase k => Sys2Proof.Machine.execSlotFltPhase k s
  | .characterReceived o stop => Sys2Proof.Machine.execCharacterReceived o stop s

end Sys2Proof.Machine
end

