-- ==== Sys2Proof/Machine/Timers.lean ====
section
/-! DEFINITION. The events the part brings about itself: every running timer with the command its expiry
is, and the one that is due (log 1). -/

namespace Sys2Proof.Machine

/-- A moment and the command that occurs then. -/
structure Due where
  time : Time
  cmd : Instr
  deriving DecidableEq, Repr

/-- The event of a timer, none while it is stopped. -/
def dueAt (t : Option Time) (c : Instr) : List Due :=
  match t with
  | none => []
  | some t => [⟨t, c⟩]

/-- The command that takes a frame of this kind (R147). -/
def takeCommand : FrameKind → Instr
  | .status => .statusReceived
  | .incident => .incidentReceived
  | .ending => .endReceived
  | .claim => .claimReceived
  | .withdraw => .withdrawReceived
  | .release => .releaseReceived
  | .invalid => .invalidFrameTaken

/-- Frame Dispatch takes the head of the receive queue as soon as there is one (R146). -/
def frameDues (s : State) : List Due :=
  match s.li.rx with
  | [] => []
  | f :: _ => [⟨s.now, takeCommand (classify s.count f)⟩]

/-- A sensor transaction in progress ends with its sample, whatever the sensor has presented on SNS_DI, the
free level of log 39 (R123).  At one moment it comes before the next round. -/
def sampleDues (s : State) : List Due :=
  match s.su.transaction with
  | none => []
  | some t => [⟨t.ends, transactionSample Config.sensorLine t⟩]

/-- The timers of Strap Latch and Join, the Sensing Unit and the niche outputs. -/
def nicheDues (s : State) : List Due :=
  dueAt s.sj.joinDue .joinTimerExpiry ++
    sampleDues s ++
    dueAt s.su.roundDue .sensorRound ++
    dueAt s.su.manualAlarm.due (.debounceExpiry .manualAlarm) ++
    dueAt s.su.pushA.due (.debounceExpiry .pushA) ++
    dueAt s.su.pushB.due (.debounceExpiry .pushB) ++
    dueAt s.su.standDown.due (.debounceExpiry .standDown) ++
    dueAt s.su.maint.due (.debounceExpiry .maint) ++
    dueAt s.no.acceptDue (.cmdLampExpiry .accept) ++
    dueAt s.no.refusedDue (.cmdLampExpiry .refused) ++
    dueAt s.no.conflict.due (.cmdLampExpiry .conflict) ++
    allSlots.flatMap fun k => dueAt (s.no.flash.get k).due (.slotFltPhase k)

/-- The timers of one slot. -/
def slotDues (s : State) (k : SlotNo) : List Due :=
  dueAt (s.slot k).runFb.due (.slotInputFilterExpiry k .runFb) ++
    dueAt (s.slot k).tripFb.due (.slotInputFilterExpiry k .tripFb) ++
    dueAt (s.slot k).dirFb.due (.slotInputFilterExpiry k .dirFb) ++
    dueAt (startDue (s.slot k)) (.startTimerExpiry k) ++
    dueAt (coastDue (s.slot k)) (.coastTimerExpiry k) ++
    dueAt (tripHoldDue (s.slot k)) (.tripHoldExpiry k)

/-- The timers of the Thrust Planner and the Incident Unit. -/
def planDues (s : State) : List Due :=
  dueAt s.tp.changeDue .changeTimerExpiry ++
    dueAt s.tp.updateDue .paceUpdate ++
    (s.iu.records.flatMap fun r => dueAt (yieldDueOf s.iu.records r.id) (.yieldHoldExpiry r.id)) ++
    (s.iu.records.flatMap fun r =>
      dueAt (endingDue s.iu.records r.id) (.endingTimerExpiry r.id)) ++
    (s.iu.reannounce.map fun x => ⟨x.time, .reannounce x.id⟩) ++
    (s.iu.endRepeats.map fun x => ⟨x.time, .endRepeat x.id⟩)

/-- The settle and renewal timers of the own claim. -/
def ownClaimDues (s : State) : List Due :=
  match s.cu.own with
  | .settling _ t => dueAt t .settleExpiry
  | .granted _ t => dueAt t .claimRenewal
  | .none => []

/-- The timers of the Claim Unit, the Peer Table, Bulletin Assembly and the health flags. -/
def boreDues (s : State) : List Due :=
  ownClaimDues s ++
    dueAt s.cu.spacingDue .claimSpacingExpiry ++
    (s.cu.view.map fun e => ⟨e.heardAt + claimEntryTime, .claimEntryExpiry e.station⟩) ++
    (s.pt.flatMap fun p => dueAt (silentDue p) (.peerSilent p.index)) ++
    dueAt s.ba.presenceDue .presenceTimerExpiry ++
    dueAt s.ba.spacingDue .statusSpacingExpiry ++
    [TimedFlag.rxOverrun, .lineErrors, .txCongested, .sensorInvalid, .directionConflict,
      .incidentOverflow, .duplicateIndex].flatMap fun f =>
        dueAt (s.health.get f) (.healthFlagExpiry f)

/-- A frame being sent is sent whole at the end of its last stop bit.  No other station drives the line of an
empty queue, so every character reads back as it was sent, and with no COLLISION given this is what ends the
send (R155, log 41). -/
def sentDues (s : State) : List Due :=
  match s.li.sending with
  | none => []
  | some x => [⟨sentBy s x (sendingOctets s x).length, .sendSuccess⟩]

/-- What the line's time brings about: its idle time, or the end of the frame being sent. -/
def lineDues (s : State) : List Due :=
  dueAt (truncationDue s) .rxTruncation ++ dueAt (syncDue s) .receiverSync ++
    dueAt (sendDue s) .sendStart ++ sentDues s

/-- Every event the part waits for. -/
def allDues (s : State) : List Due :=
  frameDues s ++ (dueAt s.fs.initDue .slotInputInitialLevels ++
    (allSlots.flatMap (slotDues s) ++ (planDues s ++ (boreDues s ++ (lineDues s ++ nicheDues s)))))

/-- The earliest of the events, the first in the list of those at the same moment. -/
def earliest : List Due → Option Due
  | [] => none
  | d :: ds =>
    match earliest ds with
    | none => some d
    | some e => if e.time < d.time then some e else some d

/-- The command of the event that is due: the earliest, once the clock has come to it (log 1). -/
def dueCommand (s : State) : Option Instr :=
  match earliest (allDues s) with
  | none => none
  | some d => if d.time ≤ s.now then some d.cmd else none

/-- One microsecond passes. -/
def clockTick (s : State) : State := { s with now := s.now + 1 }

end Sys2Proof.Machine
end

