-- ==== Sys2Proof/Safety.lean ====
section
/-! DEFINITION. What counts as a sound state of the part, in the terms the statements use: what may follow
an event at the same event, what holds after every event, what a reset holds, what CONFIG_FAULT holds, and the capacities. -/

namespace Sys2Proof.Machine

/-! ## What follows an event -/

/-- A record without its demand part. -/
def bare (r : Rec) : Rec :=
  match r.st with
  | .active c _ => { r with st := .active c none }
  | .absorbed _ | .ended _ _ => r

/-- The demand part of a record that holds one. -/
def demandHeld (r : Rec) : Option Demand :=
  match r.st with
  | .active _ d => d
  | .absorbed _ | .ended _ _ => none

/-- A claim entry as heard, without its phase. -/
def heardOf (e : ClaimEntry) : Nat × Claim × Time := (e.station, e.claim, e.heardAt)

/-- What the planner's targets and a maintenance entry, which follow an event at the same event, may
make by the moment `now` of a slot `a` as the event's own rule leaves it (R64, R72, R84): a RUNNING slot runs
on, coasts for 45 s or is LOCAL, and a STOPPED or waiting one is STOPPED, waiting or LOCAL. -/
structure SlotCloses (now : Time) (a b : Slot) : Prop where
  faults : b.faults = a.faults
  kept : b.kept = a.kept
  runFb : b.runFb = a.runFb
  tripFb : b.tripFb = a.tripFb
  dirFb : b.dirFb = a.dirFb
  drive : driveOf b.st = driveOf a.st ∨ driveOf b.st = none
  starting : isStarting a.st = true → b.st = a.st
  started : isStarting b.st = true → b.st = a.st
  running : ∀ d, a.st = .running d →
    b.st = .running d ∨ b.st = .coasting (now + 45000000) ∨ b.st = .localControl
  resting : a.st = .stopped ∨ isStartWait a.st = true →
    b.st = .stopped ∨ isStartWait b.st = true ∨ b.st = .localControl
  coasting : ∀ d, a.st = .coasting d → b.st = .coasting d
  locked : ∀ c, b.st = .lockedOut c ↔ a.st = .lockedOut c
  tripped : ∀ h, a.st = .tripped h → b.st = .tripped h ∨ b.st = .localControl
  isLocal : a.st = .localControl → b.st = .localControl
  absent : b.st = .absent ↔ a.st = .absent

/-- What everything that follows an event at the same event (the mode, the recompute, the own claim, a
pending maintenance entry, the claim test, the flash patterns and the early STATUS) leaves of the
state `s` that the event's own rule gives. -/
structure Closes (s t : State) : Prop where
  pending : t.pending = s.pending
  now : t.now = s.now
  pt : t.pt = s.pt
  su : t.su = s.su
  sj : t.sj = { s.sj with mode := t.sj.mode }
  modeStays : s.sj.mode = .joining ∨ s.sj.mode = .maintenance ∨ s.sj.mode = .configFault →
    t.sj.mode = s.sj.mode
  iu : t.iu = { s.iu with records := t.iu.records }
  bare : t.iu.records.map bare = s.iu.records.map bare
  demand : ∀ id, ((findRec s.iu.records id).bind demandHeld).isSome = true →
    findRec t.iu.records id = findRec s.iu.records id
  init : t.fs.initDue = s.fs.initDue
  slots : ∀ k, SlotCloses s.now (s.slot k) (t.slot k)
  heard : t.cu.view.map heardOf = s.cu.view.map heardOf
  sending : t.li.sending = s.li.sending
  rx : t.li.rx = s.li.rx
  synced : t.li.synced = s.li.synced
  assembly : t.li.assembly = s.li.assembly
  idle : t.li.idleSince = s.li.idleSince
  txLen : s.li.tx.length ≤ 10 → t.li.tx.length ≤ 10
  health : ∀ f, f ≠ .txCongested → t.health.get f = s.health.get f
  accept : t.no.acceptDue = s.no.acceptDue
  refused : t.no.refusedDue = s.no.refusedDue
  conflict : t.no.conflict = s.no.conflict
  commanded : t.no.commanded = s.no.commanded

/-- What waits after an event whose own rule leaves the queue `q`: its INCIDENT, END and claim-kind frames as
they stand there, and behind them in its class the CLAIM that the claim test may place at the same event (R98),
with the own claim then SETTLING.  A STATUS may have been placed too (R144). -/
def LeavesWaiting (q : List TxFrame) (s : State) : Prop :=
  let told (q : List TxFrame) : List TxFrame := q.filter fun f => bodyClass f.body != 2
  (s.cu.own = .none → told s.li.tx = told q) ∧
    ∀ c due, s.cu.own = .settling c due → told s.li.tx = told (insertTail ⟨.claim s.sect c, 0⟩ q)

/-! ## Sound states -/

/-- In QUIET and INCIDENT the mode is the one the incident list calls for (R28). -/
def ModeByList (s : State) : Prop :=
  (s.sj.mode = .incident → anyActive s = true) ∧ (s.sj.mode = .quiet → anyActive s = false)

/-- The own claim stands with its slot: a SETTLING claim's slot is in START_WAIT (R101), a GRANTED
claim's slot is STARTING (R103), and no claim settles in QUIET (R104). -/
def ClaimStands (s : State) : Prop :=
  match s.cu.own with
  | .none => True
  | .settling c _ => isStartWait (s.slot c.slot).st = true ∧ s.sj.mode ≠ .quiet
  | .granted c _ => isStarting (s.slot c.slot).st = true

/-- A state no event has left anything to follow in: the mode follows the list, the own claim stands
with its slot, no CLAIM could be placed (R98) and no maintenance entry could be made (R83). -/
structure Settled (s : State) : Prop where
  modeByList : ModeByList s
  claimStands : ClaimStands s
  noClaimDue : claimTest s = none
  noEntryDue : maintReady s = false

/-- While a reset holds the part, every block stands as a reset leaves it (R168): holding it again
changes nothing. -/
def HeldInReset (s : State) : Prop := s.sj.held = true → holdReset true s = s

/-- A slot is STARTING only while the own claim is GRANTED for it (R67). -/
def StartsGranted (s : State) : Prop :=
  ∀ k, isStarting (s.slot k).st = true → ∃ c due, s.cu.own = .granted c due ∧ c.slot = k

/-- What CONFIG_FAULT holds until the next reset (R171): no incident, no claim heard, no peer, no frame
waiting, every target OFF, no claim settling, no STATUS due, no entry pending, every lamp dark. -/
structure FaultHolds (s : State) : Prop where
  records : s.iu.records = []
  view : s.cu.view = []
  peers : s.pt = []
  tx : s.li.tx = []
  targets : s.tp.targets = .all .off
  pace : s.tp.pace = .notPace
  slotTargets : ∀ k, (s.slot k).st ≠ .absent → (s.slot k).target = .off
  noWait : ∀ k, isStartWait (s.slot k).st = false
  noSettle : ∀ c due, s.cu.own ≠ .settling c due
  noStatus : s.ba = ⟨none, none, false⟩
  noJoin : s.sj.joinDue = none
  noEntry : s.fs.maintPending = false
  lamps : s.no.acceptDue = none ∧ s.no.refusedDue = none ∧ s.no.conflict = ⟨false, none⟩

/-- The state R171 gives stands whenever the mode is CONFIG_FAULT. -/
def FaultQuiet (s : State) : Prop := s.sj.mode = .configFault → FaultHolds s

/-- The capacities: at most 6 records with distinct ids (R3), 16 claim entries (R93), 16 received frames
(R151), 10 frames waiting (R152), a history of 11 samples (R129), and one time per id for the rate of END
answers (R27). -/
structure Bounded (s : State) : Prop where
  records : s.iu.records.length ≤ 6
  distinct : (s.iu.records.map Rec.id).Nodup
  answered : (s.iu.endSent.map IdTime.id).Nodup
  view : s.cu.view.length ≤ 16
  rx : s.li.rx.length ≤ 16
  tx : s.li.tx.length ≤ 10
  history : s.su.history.length = 11

/-- The form of the transmit queue (R152): in order of class, at most one STATUS, and at most one frame of
class 0 for any one incident id. -/
structure QueueForm (s : State) : Prop where
  classes : (s.li.tx.map fun f => bodyClass f.body).Pairwise (· ≤ ·)
  status : (s.li.tx.filter fun f => bodyClass f.body == 2).length ≤ 1
  ids : (s.li.tx.filterMap fun f => bodyId f.body).Nodup

/-- The form of the claim view: in order of hearing, so that its first entry is the one heard longest ago,
which eviction takes, none heard after now, and at most one entry for each station (R93, R94). -/
structure ViewForm (s : State) : Prop where
  order : (s.cu.view.map ClaimEntry.heardAt).Pairwise (· ≤ ·)
  past : ∀ e ∈ s.cu.view, e.heardAt ≤ s.now
  stations : (s.cu.view.map ClaimEntry.station).Nodup

/-- The claim number a CLAIM, WITHDRAW or RELEASE carries. -/
def frameNumber : Body → Option (BitVec 8)
  | .claim _ c => some c.number
  | .withdraw _ _ n | .release _ _ n => some n
  | .status _ _ _ | .incident _ _ _ | .ending _ => none

/-- The number of the own claim; none in NONE. -/
def ownNumber : OwnClaim → Option (BitVec 8)
  | .none => none
  | .settling c _ | .granted c _ => some c.number

/-- The claim-kind frames that wait, the first to be sent first (R152). -/
def claimFrames (q : List TxFrame) : List Body :=
  (q.map TxFrame.body).filter fun b => bodyClass b == 1

/-- The claim-kind frame that is being sent. -/
def claimOnLine (s : State) : Option Body :=
  (s.li.sending.map fun x => x.frame.body).filter fun b => bodyClass b == 1

/-- The claim-kind frames as the Claim Unit's conduct leaves them (R106).  At most one waiting frame is of a
claim that is over, and the own claim's CLAIM waits, once, behind it.  While a frame of a claim that is over is
being sent no other such frame waits but the WITHDRAW or RELEASE of the CLAIM being sent, and while the own
claim's CLAIM is being sent none waits.  The CLAIM of a claim not yet settling waits or is being sent, or the
queue holds none; once it has gone out none is left but a renewal. -/
structure ClaimFrames (s : State) : Prop where
  waiting : ∃ old new : List Body, claimFrames s.li.tx = old ++ new ∧
    old.length ≤ 1 ∧ (∀ b ∈ old, frameNumber b ≠ ownNumber s.cu.own) ∧
    new.length ≤ 1 ∧
    (∀ b ∈ new, frameNumber b = ownNumber s.cu.own ∧ claimNumber b = ownNumber s.cu.own) ∧
    (∀ b, claimOnLine s = some b → frameNumber b ≠ ownNumber s.cu.own →
      ∀ x ∈ old, claimNumber x = none ∧ frameNumber x = claimNumber b)
  onLine : ∀ b, claimOnLine s = some b → frameNumber b = ownNumber s.cu.own →
    claimNumber b = ownNumber s.cu.own ∧ claimFrames s.li.tx = []
  unsent : ∀ c, s.cu.own = .settling c none →
    (claimFrames s.li.tx = [] ∧ claimOnLine s = none) ∨
      (∃ b ∈ claimFrames s.li.tx, claimNumber b = some c.number) ∨
      ∃ b, claimOnLine s = some b ∧ claimNumber b = some c.number
  sent : ∀ c t, s.cu.own = .settling c (some t) ∨ s.cu.own = .granted c (some t) →
    claimFrames s.li.tx = [] ∧ claimOnLine s = none
  renewing : ∀ c, s.cu.own = .granted c none →
    (∀ b ∈ claimFrames s.li.tx, claimNumber b = some c.number) ∧
      ∀ b, claimOnLine s = some b → claimNumber b = some c.number

/-- No claim-kind frame that waits or is being sent, nor the own claim, carries the number of the next CLAIM:
the numbers come round after 256 claims (R92). -/
def NextNumberFree (s : State) : Prop :=
  (∀ b ∈ claimFrames s.li.tx, frameNumber b ≠ some s.cu.counter) ∧
    (∀ b, claimOnLine s = some b → frameNumber b ≠ some s.cu.counter) ∧
    ownNumber s.cu.own ≠ some s.cu.counter

/-- Every ABSORBED record links to a record of strictly lower key, and its chain ends at a held ACTIVE
record: never at an ENDED one (R3, R13, R17). -/
def ChainsEnd (s : State) : Prop :=
  ∀ r ∈ s.iu.records, ∀ y, r.st = .absorbed y →
    keyLt y r.id = true ∧ ∃ e, resolve s.iu.records r.id = some e ∧ isEnded e = false

/-- Each slot fault output shows its slot's state while the part runs: lit steadily, flashing with its phase
timer running, or dark (R163). -/
def FlashShows (s : State) : Prop :=
  s.sj.held = false → ∀ k,
    match patternOf (s.slot k).st with
    | .steady => s.no.flash.get k = ⟨true, none⟩
    | .dark => s.no.flash.get k = ⟨false, none⟩
    | .slow | .fast | .blip => (s.no.flash.get k).due.isSome = true

/-- At most one of CMD_ACCEPT and CMD_REFUSED is lit (R162). -/
def OneLamp (s : State) : Prop := s.no.acceptDue = none ∨ s.no.refusedDue = none

/-- The command is one of the three that a reset consists of. -/
def isReset : Instr → Bool
  | .powerOnReset | .externalReset | .resetRelease _ => true
  | .joinTimerExpiry | .sensorRound | .sensorSample _ _ _ | .inputLevelChange _ _
  | .debounceExpiry _ | .maintenanceEntry | .slotInputChange _ _ _ | .slotInputFilterExpiry _ _
  | .slotInputInitialLevels | .startTimerExpiry _ | .coastTimerExpiry _ | .tripHoldExpiry _
  | .paceUpdate | .changeTimerExpiry | .yieldHoldExpiry _ | .incidentReceived | .endReceived
  | .reannounce _ | .endRepeat _ | .endingTimerExpiry _ | .statusReceived | .peerSilent _
  | .claimReceived | .withdrawReceived | .releaseReceived | .invalidFrameTaken | .claimPlacement
  | .claimSpacingExpiry | .settleExpiry | .claimRenewal | .claimEntryExpiry _
  | .presenceTimerExpiry | .statusSpacingExpiry | .healthFlagExpiry _ | .sendStart | .sendSuccess
  | .collision _ _ | .receiverSync | .frameArrival _ | .rxFrameDiscard _ _ | .rxTruncation
  | .cmdLampExpiry _ | .slotFltPhase _ | .characterReceived _ _ => false

/-! ## What a sender may put into a bulletin -/

/-- An incident id of a bore of `count` stations (R1). -/
def idFits (count : Nat) (id : Id) : Bool := 1 ≤ id.origin && id.origin ≤ count

/-- The content of an INCIDENT that a bore of `count` stations can hold (R1, R14). -/
def contentFits (count : Nat) (c : Content) : Bool :=
  1 ≤ c.lo && c.lo ≤ c.hi && c.hi ≤ count && c.rev ≤ 15 &&
    (match c.cmd with
      | none => c.rev == 0
      | some p => 1 ≤ p && p ≤ count)

/-- A claim that a station of such a bore can make (R90, R94). -/
def claimFits (count : Nat) (c : Claim) : Bool :=
  c.key.cls ≤ 1 && c.key.rank < count && c.key.serial != 0#32

/-- The status fields of a station (R107, R114). -/
def viewFits (v : View) : Bool :=
  (v.mode == .quiet || v.mode == .incident || v.mode == .maintenance) && v.fans ≤ 4 &&
    v.runA + v.runB ≤ v.fans && (v.mode != .maintenance || v.fans == 0) &&
    readingWithin (-40) 1000 v.temp && readingWithin (-200) 200 v.vel

/-- A governing block of such a bore, its demand in the two octets R140 gives it. -/
def govFits (count : Nat) (g : GovBlock) : Bool := idFits count g.id && g.demand < 65536

/-- A status part that passes the checks of R114. -/
def statusFits (count : Nat) (p : StatusPart) : Bool :=
  viewFits p.view && p.entries.length ≤ 6 && p.entries.all (fun e => idFits count e.id) &&
    distinctIds p.entries && govListed p.gov p.entries &&
    (match p.gov with
      | none => p.view.mode != .incident
      | some g => p.view.mode != .quiet && govFits count g)

end Sys2Proof.Machine
end

