-- ==== Sys2Proof/Certificates/Slice0/Obligations.lean ====
section
/-! DEFINITION. The statements for the provers.  `Settled`, `Closes` and the other terms they use stand in
Sys2Proof/Safety.lean.  Times are in microseconds; `max s.now t` is the moment of an event whose timer
expires at `t` (log 1).  A frame that an event places stands in the transmit queue in that event's next state,
on a line idle long enough too: its send is a SEND_START after it (the model's choice, log 49). -/

open Sys2Proof Sys2Proof.Machine

/-! ## The step -/

/-- A step with a command waiting is that command's effect on the state with the rest of the queue. -/
def Obligations.StepRunsTheQueueFront : Prop :=
  ∀ (c : Instr) (rest : List Instr) (s : State), s.pending = c :: rest →
    step s = exec c { s with pending := rest }

/-- With no command waiting, the earliest timer that has run out brings its event; where none has, one
microsecond passes (the model's choice, log 1). -/
def Obligations.IdleStepRunsTheDueEventOrTicks : Prop :=
  ∀ s : State, s.pending = [] →
    (∀ d, earliest (allDues s) = some d → d.time ≤ s.now → step s = exec d.cmd s) ∧
    ((∀ d, earliest (allDues s) = some d → s.now < d.time) →
      step s = .next { s with now := s.now + 1 })

/-! ## Resets, release and joining -/

/-- Both resets release every output and clear every block; the pins, the strap latch and the factory serial
stand; a power-on reset clears fault counts and lockouts and an external reset keeps them.  That the
model's clock and its queue of commands go on through both is the model's own choice (log 24)
(R6, R32, R87, R91, R93, R108, R126, R129, R130, R143, R145, R151, R152, R164, R168). -/
def Obligations.ResetsClearTheBlocks : Prop :=
  ∀ s : State, ∃ u v : State,
    exec .powerOnReset s = .next u ∧ exec .externalReset s = .next v ∧
    (∀ w, w = u ∨ w = v →
      pinsOf w = { drive := .all none, sign := none, smoke := false, incident := false,
                   health := false, cmdAccept := false, cmdRefused := false, cmdConflict := false,
                   slotFault := .all false, txEnable := false, txData := true,
                   select := none, clock := false } ∧
      w.sj.held = true ∧ w.sj.straps = s.sj.straps ∧ w.sj.serial = s.sj.serial ∧
      w.sj.joinDue = none ∧ w.pending = s.pending ∧ w.now = s.now ∧
      w.iu.records = [] ∧ w.iu.counter = 0#4 ∧ w.iu.reannounce = [] ∧ w.iu.endRepeats = [] ∧
      w.iu.heldAlarm = false ∧
      w.tp = ⟨.all .off, .notPace, none, none, none⟩ ∧
      w.fs.maintPending = false ∧
      w.cu.counter = 0#8 ∧ w.cu.own = .none ∧ w.cu.view = [] ∧ w.cu.spacingDue = none ∧
      w.pt = [] ∧
      w.su.heat = ⟨none, 0⟩ ∧ w.su.opacity = ⟨none, 0⟩ ∧ w.su.velocity = ⟨none, 0⟩ ∧
      w.su.history = List.replicate 11 none ∧ w.su.alarm = .armed ∧
      (∀ i, w.su.input i = ⟨(s.su.input i).pin, false, none⟩) ∧
      w.li.tx = [] ∧ w.li.rx = [] ∧ w.li.sending = none ∧ w.li.assembly = [] ∧
      w.li.synced = false ∧
      w.ba = ⟨none, none, false⟩ ∧ (∀ f, w.health.get f = none) ∧ w.no.commanded = false ∧
      (∀ k i, ((w.slot k).input i).pin = ((s.slot k).input i).pin)) ∧
    (∀ k, (u.slot k).faults = 0 ∧ lockoutOf (u.slot k) = none) ∧
    (∀ k, (v.slot k).faults = (s.slot k).faults ∧ lockoutOf (v.slot k) = lockoutOf (s.slot k))

/-- The fields of the strap word and its check.  Reset release latches the straps, starts JOINING for 6 s or
CONFIG_FAULT, gives every slot its first state, starts the first polling round, the starting-level
filters and the debounce of every input that is asserted; the pattern of a slot still LOCKED_OUT starts
again with its lit phase, every other slot fault output is dark, a lockout of a slot not fitted is kept
unseen (log 6), and nothing else changes (R61, R63, R87, R123, R133, R163 to R166, R168, R169).  That the
idle line is counted from the release (log 16), and that slot inputs read not asserted until their starting
levels are taken (log 17), is the model's choice, deduced. -/
def Obligations.ResetReleaseLatchesTheStraps : Prop :=
  (∀ w : BitVec 28,
     strapStation w = w.toNat % 128 ∧ strapCount w = w.toNat / 128 % 128 ∧
     strapSpacing w = [60, 80, 100, 120, 150, 200, 250, 300].getD (w.toNat / 16384 % 8) 0 ∧
     strapFans w = min 4 (w.toNat / 131072 % 8) ∧ strapSection w = w.toNat / 1048576 % 16 ∧
     strapVtarget w = w.toNat / 16777216 % 4 ∧ strapRate w = w.toNat / 67108864 ∧
     (strapsValid w = false ↔
       (strapStation w = 0 ∨ 120 < strapStation w) ∨ (strapCount w < 2 ∨ 120 < strapCount w) ∨
         strapCount w < strapStation w ∨ strapSection w = 0)) ∧
  (∀ (w : BitVec 28) (s : State), s.sj.held = true →
     ∃ u, exec (.resetRelease w) s = .next u ∧
       u.sj = { held := false, straps := w, serial := s.sj.serial,
                mode := if strapsValid w then .joining else .configFault,
                joinDue := if strapsValid w then some (s.now + 6000000) else none } ∧
       (∀ k, (u.slot k).faults = (s.slot k).faults ∧ (u.slot k).target = .off ∧
         (∀ i, ((u.slot k).input i) = ⟨((s.slot k).input i).pin, false, ((s.slot k).input i).pin, none⟩) ∧
         (u.slot k).st =
           (if slotNumber k ≤ strapFans w then
             (match lockoutOf (s.slot k) with
               | some c => .lockedOut c
               | none => .coasting (s.now + 45000000))
           else .absent) ∧
         (u.slot k).kept = (if slotNumber k ≤ strapFans w then none else lockoutOf (s.slot k)) ∧
         u.no.flash.get k =
           (match (u.slot k).st with
             | .lockedOut .startFail => ⟨true, none⟩
             | .lockedOut .trip => ⟨true, some (s.now + 500000)⟩
             | .lockedOut .stuck => ⟨true, some (s.now + 125000)⟩
             | _ => ⟨false, none⟩)) ∧
       u.fs.initDue = some (s.now + 100000) ∧ u.fs.maintPending = false ∧
       u.su = { s.su with
         transaction := some ⟨.heat, s.now + 290⟩, roundDue := some (s.now + 1000000),
         manualAlarm := u.su.manualAlarm, pushA := u.su.pushA, pushB := u.su.pushB,
         standDown := u.su.standDown, maint := u.su.maint } ∧
       (∀ i, u.su.input i = ⟨(s.su.input i).pin, false,
         if (s.su.input i).pin then some (s.now + 1000000) else none⟩) ∧
       u.li = { s.li with idleSince := s.now } ∧ u.no = { s.no with flash := u.no.flash } ∧
       u.pending = s.pending ∧ u.now = s.now ∧ u.iu = s.iu ∧ u.tp = s.tp ∧ u.cu = s.cu ∧
       u.pt = s.pt ∧ u.ba = s.ba ∧ u.health = s.health)

/-- At the end of JOINING the station takes INCIDENT if its list holds an ACTIVE record and QUIET otherwise, acts
on a held alarm event, and then places its first STATUS and starts the presence and STATUS spacing timers.  A
held alarm over an empty list, with no peer SILENT, declares an incident over the own station, whose INCIDENT
is placed, and the mode is INCIDENT.  Last, MAINT debounced asserted makes an entry pending: with no slot
STARTING, RUNNING or COASTING it is made at once and the mode is MAINTENANCE, and with one STARTING or COASTING
it waits (R7, R8, R10, R83, R136, R143, R170).  That MAINT is taken after the first STATUS has been placed, as
a second part of the event, is the model's choice, deduced (log 31). -/
def Obligations.JoinEndTakesTheFirstMode : Prop :=
  (∀ (s : State) (t : Time), s.sj.joinDue = some t → s.iu.heldAlarm = false →
    s.su.maint.level = false → s.fs.maintPending = false →
    ∃ u, exec .joinTimerExpiry s = .next u ∧
      u.sj = { s.sj with mode := if anyActive s then .incident else .quiet, joinDue := none } ∧
      u.now = max s.now t ∧
      u.ba.presenceDue = some (max s.now t + (if anyActive s then 1000000 else 2000000)) ∧
      u.ba.spacingDue = some (max s.now t + 100000) ∧
      (s.li.tx.length < 8 → ∃ f ∈ u.li.tx, bodyClass f.body = 2) ∧
      u.su = s.su ∧ u.pt = s.pt ∧ actives u.iu.records = actives s.iu.records ∧
      u.iu = { s.iu with records := u.iu.records }) ∧
  (∀ (s : State) (t : Time), s.sj.joinDue = some t → s.iu.heldAlarm = true →
    s.su.maint.level = false → s.fs.maintPending = false → s.iu.records = [] →
    (∀ p ∈ s.pt, p.liveness ≠ .silent) →
    let c : Content :=
      ⟨s.station, s.station, if 2 * s.station ≤ s.count + 1 then .towardA else .towardB, 0, none⟩
    ∃ u r, exec .joinTimerExpiry s = .next u ∧ u.iu.records = [r] ∧
      r.id = ⟨s.station, s.iu.counter⟩ ∧ contentOf r = some c ∧
      u.iu.counter = s.iu.counter + 1#4 ∧ u.iu.heldAlarm = false ∧
      u.sj = { s.sj with mode := .incident, joinDue := none } ∧ u.now = max s.now t ∧
      u.ba.presenceDue = some (max s.now t + 1000000) ∧
      u.ba.spacingDue = some (max s.now t + 100000) ∧
      (s.li.tx.length < 7 → (∃ f ∈ u.li.tx, f.body = .incident r.id none c) ∧
        ∃ f ∈ u.li.tx, bodyClass f.body = 2)) ∧
  (∀ (s : State) (t : Time), s.sj.joinDue = some t → s.iu.heldAlarm = false →
    s.su.maint.level = true → s.fs.maintPending = false →
    ∃ u, exec .joinTimerExpiry s = .next u ∧ u.sj.joinDue = none ∧ u.now = max s.now t ∧
      u.ba.presenceDue = some (max s.now t + (if anyActive s then 1000000 else 2000000)) ∧
      u.ba.spacingDue = some (max s.now t + 100000) ∧
      (s.li.tx.length < 8 → ∃ f ∈ u.li.tx, bodyClass f.body = 2) ∧
      ((∀ k, isStartingOrCoasting (s.slot k).st = false ∧ ∀ d, (s.slot k).st ≠ .running d) →
        u.sj.mode = .maintenance ∧ u.fs.maintPending = false) ∧
      (∀ k, isStartingOrCoasting (s.slot k).st = true →
        u.sj.mode = (if anyActive s then .incident else .quiet) ∧ u.fs.maintPending = true))

/-! ## Sensing and niche inputs -/

/-- A polling round selects the heat sensor, whose transaction takes 290 µs.  The next round is due 1 s after
this one was, however late this one began; nothing else changes (R123). -/
def Obligations.SensorRoundStartsATransaction : Prop :=
  ∀ (s : State) (t : Time), Settled s → s.su.roundDue = some t →
    exec .sensorRound s = .next { s with
      now := max s.now t
      su := { s.su with
        roundDue := some (t + 1000000)
        transaction := some ⟨.heat, max s.now t + 290⟩ } }

/-- The sample of a transaction is missing where the third octet is not the sum of the first two and 0x5A
mod 256, or the first two are 0x8000; otherwise they are a signed number, high octet first, of which a
temperature outside -40 to 1000 is missing, an opacity is brought into 0 to 254 and a velocity into -200 to
200.  A sample updates its own sensor's held reading: a good one is held with a count of 0, a missing one
raises the count and at the tenth the reading is INVALID; a missing sample that leaves its reading
INVALID raises SENSOR_INVALID.  The next sensor's transaction follows straight after.  At a temperature
sample a heat alarm that meets none of its tests stays ARMED and one that meets a test goes ALARMED; in
ALARMED 30 good samples below 60 °C in a row arm it again, and any other sample starts the count anew
(R123 to R127, R129, R130, R131). -/
def Obligations.SensorSampleUpdatesReadingAndAlarm : Prop :=
  (∀ (x : Sensor) (h l c : Octet),
     let n : Int := 256 * h.toNat + l.toNat
     let v : Int := if h.toNat < 128 then n else n - 65536
     (c.toNat ≠ (h.toNat + l.toNat + 90) % 256 → sampleValue x h l c = none) ∧
     (h = 0x80#8 → l = 0x00#8 → sampleValue x h l c = none) ∧
     (c.toNat = (h.toNat + l.toNat + 90) % 256 → ¬ (h = 0x80#8 ∧ l = 0x00#8) →
       sampleValue x h l c = match x with
         | .heat => if -40 ≤ v ∧ v ≤ 1000 then some v else none
         | .opacity => some (if v < 0 then 0 else if 254 < v then 254 else v)
         | .velocity => some (if v < -200 then -200 else if 200 < v then 200 else v))) ∧
  (∀ (s : State) (x : Transaction) (h l c : Octet), s.su.transaction = some x →
     ∃ u, exec (.sensorSample h l c) s = .next u ∧ u.now = max s.now x.ends ∧
       (let old := match x.sensor with
         | .heat => s.su.heat | .opacity => s.su.opacity | .velocity => s.su.velocity
        let new : Reading := match sampleValue x.sensor h l c, old.value with
         | some v, _ => ⟨some v, 0⟩
         | none, none => ⟨none, 10⟩
         | none, some v => if old.missing + 1 < 10 then ⟨some v, old.missing + 1⟩ else ⟨none, 10⟩
        u.su.heat = (if x.sensor = .heat then new else s.su.heat) ∧
        u.su.opacity = (if x.sensor = .opacity then new else s.su.opacity) ∧
        u.su.velocity = (if x.sensor = .velocity then new else s.su.velocity) ∧
        (sampleValue x.sensor h l c = none → new.value = none →
         u.health.get .sensorInvalid = some (max s.now x.ends + 60000000)) ∧
        (¬ (sampleValue x.sensor h l c = none ∧ new.value = none) →
         u.health.get .sensorInvalid = s.health.get .sensorInvalid)) ∧
       u.su.history = (if x.sensor = .heat then
         sampleValue .heat h l c :: s.su.history.take 10 else s.su.history) ∧
       u.su.transaction = (match x.sensor with
         | .heat => some ⟨.opacity, max s.now x.ends + 290⟩
         | .opacity => some ⟨.velocity, max s.now x.ends + 290⟩
         | .velocity => none) ∧
       (x.sensor ≠ .heat → u.su.alarm = s.su.alarm) ∧
       u.su.roundDue = s.su.roundDue ∧ (∀ i, u.su.input i = s.su.input i) ∧
       u.pt = s.pt ∧ u.sj = { s.sj with mode := u.sj.mode }) ∧
  (∀ (s : State) (t : Time) (h l c : Octet), s.su.transaction = some ⟨.heat, t⟩ →
     ∃ u, exec (.sensorSample h l c) s = .next u ∧
       (match s.su.alarm, sampleValue .heat h l c with
       | .armed, none => u.su.alarm = .armed
       | .armed, some v =>
         let met : Prop :=
           (70 ≤ v ∧ ∃ w, s.su.history[0]? = some (some w) ∧ 70 ≤ w) ∨
             (45 ≤ v ∧ ∃ w, s.su.history[9]? = some (some w) ∧ w + 15 ≤ v) ∨
             (60 ≤ v ∧ ∃ o, s.su.opacity.value = some o ∧ 50 ≤ o)
         (met → u.su.alarm = .alarmed 0) ∧ (¬ met → u.su.alarm = .armed)
       | .alarmed _, none => u.su.alarm = .alarmed 0
       | .alarmed n, some v =>
         u.su.alarm =
           (if 60 ≤ v then .alarmed 0 else if n + 1 < 30 then .alarmed (n + 1) else .armed)))

/-- An alarm event in QUIET or MAINTENANCE, with an empty list and no SILENT peer, declares an incident of the
own index and counter over the own station alone, its direction toward the nearer portal, advances the
counter by 1 mod 16, places the record's INCIDENT at once and takes the station from QUIET to INCIDENT.  The
event is a heat sample of 70 °C or more after another such, the alarm ARMED, or MANUAL_ALARM debounced
asserted.  Within two stations of the one record's span it extends that span to the own station and declares
nothing; a span that changed is re-announced.  Three stations past an end of the one span it declares, and
the record of higher key is at once ABSORBED into the other and both ids are re-announced.  With six records
held, none of them ENDED and no ACTIVE one within two stations, it is refused with INCIDENT_OVERFLOW.  In
JOINING it is held, in CONFIG_FAULT ignored (R5, R7, R8, R9, R10, R16, R28, R29, R130, R132).  The INCIDENT of
a declaration that is then absorbed is the model's choice (log 36), and so is that the moment of an INCIDENT
counts toward the rate of R26 even where a full queue does not take it (log 38). -/
def Obligations.AlarmEventDeclaresOrExtends : Prop :=
  (∀ (s : State) (t : Time) (h l c : Octet) (v w : Int),
    s.su.transaction = some ⟨.heat, t⟩ → s.su.alarm = .armed →
    sampleValue .heat h l c = some v → 70 ≤ v → s.su.history[0]? = some (some w) → 70 ≤ w →
    s.sj.mode = .quiet → s.fs.maintPending = false → s.iu.records = [] →
    (∀ p ∈ s.pt, p.liveness ≠ .silent) →
    ∃ u r, exec (.sensorSample h l c) s = .next u ∧ u.iu.records = [r] ∧
      r.id = ⟨s.station, s.iu.counter⟩ ∧
      contentOf r = some
        ⟨s.station, s.station, if 2 * s.station ≤ s.count + 1 then .towardA else .towardB, 0, none⟩ ∧
      u.iu.counter = s.iu.counter + 1#4 ∧ u.sj = { s.sj with mode := .incident } ∧
      u.su.alarm = .alarmed 0 ∧ u.iu.heldAlarm = s.iu.heldAlarm ∧ u.pt = s.pt) ∧
  (∀ (s : State) (t : Time), s.su.manualAlarm.due = some t → s.su.manualAlarm.pin = true →
    (s.sj.mode = .joining ∨ s.sj.mode = .configFault → Settled s →
      exec (.debounceExpiry .manualAlarm) s = .next { s with
        now := max s.now t
        su := s.su.setInput .manualAlarm ⟨true, true, none⟩
        iu := { s.iu with heldAlarm := s.iu.heldAlarm || (s.sj.mode == .joining) } }) ∧
    (s.sj.mode = .quiet ∨ s.sj.mode = .incident ∨ s.sj.mode = .maintenance →
      6 ≤ s.iu.records.length → (∀ r ∈ s.iu.records, isEnded r = false) →
      (∀ a ∈ actives s.iu.records, s.station + 2 < a.2.lo ∨ a.2.hi + 2 < s.station) →
      ∃ u, exec (.debounceExpiry .manualAlarm) s = .next u ∧
        u.iu.records.map bare = s.iu.records.map bare ∧ u.iu.counter = s.iu.counter ∧
        u.health.get .incidentOverflow = some (max s.now t + 60000000))) ∧
  (∀ (s : State) (t : Time), s.su.manualAlarm.due = some t → s.su.manualAlarm.pin = true →
    (s.sj.mode = .quiet ∨ s.sj.mode = .incident ∨ s.sj.mode = .maintenance) →
    s.fs.maintPending = false → (∀ p ∈ s.pt, p.liveness ≠ .silent) →
    let new : Id := ⟨s.station, s.iu.counter⟩
    let n : Content :=
      ⟨s.station, s.station, if 2 * s.station ≤ s.count + 1 then .towardA else .towardB, 0, none⟩
    (s.iu.records = [] →
      ∃ u r, exec (.debounceExpiry .manualAlarm) s = .next u ∧ u.iu.records = [r] ∧
        r.id = new ∧ contentOf r = some n ∧ u.iu.counter = s.iu.counter + 1#4 ∧
        (s.li.tx.length < 10 → ∃ f ∈ u.li.tx, f.body = .incident new none n) ∧
        timeOf u.iu.incidentSent new = some (max s.now t) ∧
        u.sj.mode = (if s.sj.mode = .maintenance then .maintenance else .incident)) ∧
    (∀ id c d, s.iu.records = [⟨id, .active c d⟩] → c.lo ≤ s.station + 2 → s.station ≤ c.hi + 2 →
      ∃ u r, exec (.debounceExpiry .manualAlarm) s = .next u ∧ u.iu.records = [r] ∧ r.id = id ∧
        contentOf r = some { c with lo := min c.lo s.station, hi := max c.hi s.station } ∧
        u.iu.counter = s.iu.counter ∧
        u.sj.mode = (if s.sj.mode = .maintenance then .maintenance else .incident) ∧
        (s.station < c.lo ∨ c.hi < s.station → (timeOf u.iu.reannounce id).isSome = true)) ∧
    (∀ id c d, s.iu.records = [⟨id, .active c d⟩] → c.lo ≤ c.hi → id.origin ≠ s.station →
      (s.station = c.hi + 3 ∨ s.station + 3 = c.lo) →
      ∃ u, exec (.debounceExpiry .manualAlarm) s = .next u ∧
        u.iu.records.map bare =
          (if id.origin < s.station
           then [⟨id, .active (merge c n) none⟩, ⟨new, .absorbed id⟩]
           else [⟨id, .absorbed new⟩, ⟨new, .active (merge n c) none⟩]) ∧
        (s.li.tx.length < 10 → ∃ f ∈ u.li.tx, f.body = .incident new none n) ∧
        (timeOf u.iu.reannounce id).isSome = true ∧ (timeOf u.iu.reannounce new).isSome = true ∧
        u.iu.counter = s.iu.counter + 1#4 ∧
        u.sj.mode = (if s.sj.mode = .maintenance then .maintenance else .incident)))

/-- A niche input's new level starts its 1 s debounce and a return to the debounced level cancels it; a slot's
feedback input's new level starts its 100 ms filter and a return to the level last taken stops it, in a
fitted slot whose starting levels have been taken.  Nothing else changes (R61, R133). -/
def Obligations.PinChangesStartTheirFilters : Prop :=
  (∀ (s : State) (i : Input) (v : Bool), s.sj.held = false → v ≠ (s.su.input i).pin →
     exec (.inputLevelChange i v) s = .next { s with
       su := s.su.setInput i ⟨v, (s.su.input i).level,
         if v = (s.su.input i).level then none else some (s.now + 1000000)⟩ }) ∧
  (∀ (s : State) (k : SlotNo) (i : SlotInput) (v : Bool), s.sj.held = false →
     (s.slot k).st ≠ .absent → s.fs.initDue = none → v ≠ ((s.slot k).input i).pin →
     exec (.slotInputChange k i v) s = .next (setSlot k ((s.slot k).setInput i
       { (s.slot k).input i with
         pin := v
         due := if v = ((s.slot k).input i).level then none else some (s.now + 100000) }) s))

/-- At the end of the debounce the pin's level becomes the debounced level of that input, and of no other;
the sensors' part of the Sensing Unit stands (R133, R134). -/
def Obligations.DebounceExpiryTakesTheLevel : Prop :=
  ∀ (s : State) (i : Input) (t : Time), (s.su.input i).due = some t →
    ∃ u, exec (.debounceExpiry i) s = .next u ∧ u.now = max s.now t ∧
      u.su = s.su.setInput i ⟨(s.su.input i).pin, (s.su.input i).pin, none⟩ ∧
      u.pt = s.pt ∧ u.li.rx = s.li.rx ∧ u.li.sending = s.li.sending

/-- A direction command on the governing record is accepted below revision 15 with the other push input not
asserted: the record is COMMANDED by this station in that direction with the revision one higher, and
CMD_ACCEPT lights for 2 s; otherwise nothing in the list changes and CMD_REFUSED lights (R19, R162).
Either way a command has been taken, and the command lamps may light from now on (R164). -/
def Obligations.DirectionCommandIsAcceptedOrRefused : Prop :=
  ∀ (s : State) (d : Direction) (t : Time),
    let i : Input := match d with | .towardA => .pushA | .towardB => .pushB
    let j : Input := match d with | .towardA => .pushB | .towardB => .pushA
    (s.su.input i).due = some t → (s.su.input i).pin = true →
    (s.sj.mode = .quiet ∨ s.sj.mode = .incident ∨ s.sj.mode = .maintenance) →
    ∃ u, exec (.debounceExpiry i) s = .next u ∧ u.no.commanded = true ∧
      (∀ g, governing s = some g → g.content.rev < 15 → (s.su.input j).level = false →
        u.iu.records.map bare =
          (setContent s.iu.records g.id
            { g.content with dir := d, rev := g.content.rev + 1, cmd := some s.station }).map bare ∧
        (timeOf u.iu.reannounce g.id).isSome = true ∧
        u.no.acceptDue = some (max s.now t + 2000000) ∧ u.no.refusedDue = none) ∧
      ((governing s = none ∨ (∃ g, governing s = some g ∧ 15 ≤ g.content.rev) ∨
          (s.su.input j).level = true) →
        u.iu.records.map bare = s.iu.records.map bare ∧ u.iu.reannounce = s.iu.reannounce ∧
        u.no.refusedDue = some (max s.now t + 2000000) ∧ u.no.acceptDue = none)

/-- A stand-down ends the governing record and every record whose chain resolves to it, each ENDED with a 60 s
ending timer and its pending re-announce cancelled, places END for the governing id at once, calls for two
END repeats 0.5 s apart and lights CMD_ACCEPT; with no governing incident it lights CMD_REFUSED (R21, R162).
Either way a command has been taken (R164). -/
def Obligations.StandDownEndsTheChain : Prop :=
  ∀ (s : State) (t : Time), s.su.standDown.due = some t → s.su.standDown.pin = true →
    (s.sj.mode = .quiet ∨ s.sj.mode = .incident ∨ s.sj.mode = .maintenance) →
    ∃ u, exec (.debounceExpiry .standDown) s = .next u ∧ u.no.commanded = true ∧
      (∀ g, governing s = some g →
        (∀ r ∈ s.iu.records, (resolve s.iu.records r.id).map Rec.id = some g.id →
          ⟨r.id, .ended s.iu.endings (max s.now t + 60000000)⟩ ∈ u.iu.records ∧
          timeOf u.iu.reannounce r.id = none) ∧
        (∀ r ∈ s.iu.records, (resolve s.iu.records r.id).map Rec.id ≠ some g.id →
          bare r ∈ u.iu.records.map bare) ∧
        u.iu.records.map Rec.id = s.iu.records.map Rec.id ∧
        (s.li.tx.length < 10 → ∃ f ∈ u.li.tx, f.body = .ending g.id) ∧
        u.iu.endRepeats = s.iu.endRepeats ++
          [⟨g.id, max s.now t + 500000⟩, ⟨g.id, max s.now t + 1000000⟩] ∧
        u.no.acceptDue = some (max s.now t + 2000000) ∧ u.no.refusedDue = none) ∧
      (governing s = none →
        u.iu.records.map bare = s.iu.records.map bare ∧ u.iu.endRepeats = s.iu.endRepeats ∧
        u.no.refusedDue = some (max s.now t + 2000000) ∧ u.no.acceptDue = none)

/-! ## Maintenance -/

/-- A maintenance entry, where R83 lets it be made, takes the mode to MAINTENANCE and every slot that is
neither ABSENT nor LOCKED_OUT into LOCAL, with no drive asserted; no slot's fault count, pins or lockout
changes.  MAINT debounced asserted in QUIET or INCIDENT makes an entry pending, which is made at once where
no slot is STARTING or COASTING and waits, changing nothing else, where one is.  MAINT debounced released
while the entry is pending drops it, and a STOPPED slot that holds a RUN target enters START_WAIT in that
direction; no other slot changes its state (R83, R84, R136). -/
def Obligations.MaintenanceEntryTakesTheSlots : Prop :=
  (∀ s : State, s.fs.maintPending = true → (s.sj.mode = .quiet ∨ s.sj.mode = .incident) →
    (∀ k, isStartingOrCoasting (s.slot k).st = false) →
    ∃ u, exec .maintenanceEntry s = .next u ∧ u.sj = { s.sj with mode := .maintenance } ∧
      u.fs.maintPending = false ∧ u.su = s.su ∧ u.pt = s.pt ∧
      u.iu.records.map bare = s.iu.records.map bare ∧
      (∀ k, (u.slot k).st =
          (match (s.slot k).st with
            | .absent => .absent
            | .lockedOut c => .lockedOut c
            | .stopped | .startWait _ | .starting _ _ | .running _ | .coasting _ | .tripped _
            | .localControl => .localControl) ∧
        driveOut u k = none ∧ (u.slot k).faults = (s.slot k).faults ∧
        ∀ i, (u.slot k).input i = (s.slot k).input i)) ∧
  (∀ (s : State) (t : Time), Settled s → s.su.maint.due = some t → s.su.maint.pin = true →
    (s.sj.mode = .quiet ∨ s.sj.mode = .incident) →
    ((∀ k, isStartingOrCoasting (s.slot k).st = false) →
      ∃ u, exec (.debounceExpiry .maint) s = .next u ∧
        u.sj = { s.sj with mode := .maintenance } ∧ u.fs.maintPending = false ∧
        ∀ k, driveOut u k = none) ∧
    (∀ k, isStartingOrCoasting (s.slot k).st = true →
      exec (.debounceExpiry .maint) s = .next { s with
        now := max s.now t
        su := s.su.setInput .maint ⟨true, true, none⟩
        fs := { s.fs with maintPending := true } })) ∧
  (∀ (s : State) (t : Time), s.su.maint.due = some t → s.su.maint.pin = false →
    (s.sj.mode = .quiet ∨ s.sj.mode = .incident) → s.fs.maintPending = true →
    ∃ u, exec (.debounceExpiry .maint) s = .next u ∧ u.fs.maintPending = false ∧
      Closes { s with
        now := max s.now t
        su := s.su.setInput .maint ⟨false, false, none⟩
        fs := { s.fs with
          maintPending := false
          slots := s.fs.slots.map fun sl =>
            match sl.st, sl.target with
            | .stopped, .run d => { sl with st := .startWait d }
            | _, _ => sl } } u ∧
      (Settled s → u.sj = s.sj ∧ u.tp = s.tp ∧ u.fs.initDue = s.fs.initDue ∧
        ∀ k, u.slot k = { s.slot k with
          st := (match (s.slot k).st, (s.slot k).target with
            | .stopped, .run d => .startWait d
            | st, _ => st) }))

/-- MAINT released in MAINTENANCE: the fault count of every slot that is not ABSENT becomes 0 and no slot stays
LOCKED_OUT; an ABSENT slot is left as it was, which is the model's choice, deduced (log 9); a slot that was
LOCAL or LOCKED_OUT is TRIPPED with its 120 s hold when TRIP_FB is asserted, a LOCAL one whose motor runs
runs on toward the side DIR_FB reads where the plan made at this event targets that side, and coasts 45 s where
it does not; any other COASTS 45 s; the mode returns by the list (R64, R86). -/
def Obligations.MaintenanceExitTakesUpTheSlots : Prop :=
  ∀ (s : State) (t : Time), s.su.maint.due = some t → s.su.maint.pin = false →
    s.sj.mode = .maintenance → s.fs.maintPending = false →
    ∃ u, exec (.debounceExpiry .maint) s = .next u ∧
      u.sj = { s.sj with mode := if anyActive s then .incident else .quiet } ∧
      (∀ k, (s.slot k).st = .absent → u.slot k = s.slot k) ∧
      (∀ k, (s.slot k).st ≠ .absent → (u.slot k).faults = 0) ∧
      (∀ k c, (u.slot k).st ≠ .lockedOut c) ∧
      (∀ k, (s.slot k).st = .localControl ∨ (∃ c, (s.slot k).st = .lockedOut c) →
        (u.slot k).faults = 0 ∧
        ((s.slot k).tripFb.level = true →
          (u.slot k).st = .tripped (some (max s.now t + 120000000))) ∧
        ((s.slot k).tripFb.level = false →
          (s.slot k).runFb.level = false ∨ (s.slot k).st ≠ .localControl →
          (u.slot k).st = .coasting (max s.now t + 45000000)) ∧
        ((s.slot k).tripFb.level = false → (s.slot k).runFb.level = true →
          (s.slot k).st = .localControl →
          let d : Direction := if (s.slot k).dirFb.level then .towardB else .towardA
          (u.slot k).target = u.tp.targets.get k ∧
          (u.slot k).st = (if u.tp.targets.get k = .run d then .running d
            else .coasting (max s.now t + 45000000))))

/-! ## Fan slots -/

/-- RUN_FB taken asserted: a STARTING slot becomes RUNNING, at once acting on the target it holds, and its
claim is released: the RELEASE takes the place of a renewal CLAIM that waits unsent, which is gone, and else
joins the queue; a STOPPED or START_WAIT slot COASTS 45 s; no other state acts on it.  RUN_FB taken released: a
RUNNING slot whose TRIP_FB is not asserted has lost its motor, its fault count rises by 1 and it COASTS 45 s, or
at a count of 2 locks out with cause TRIP; no other state acts on it.  From a settled state the slot is in that
very state after the event, unless a pending maintenance entry that waited for this slot alone follows (R67,
R68, R71, R79, R80, R103, R153).  That the RELEASE keeps the attempt count of the CLAIM whose place it takes is
the model's choice, deduced (log 18). -/
def Obligations.RunFeedbackTaken : Prop :=
  (∀ (s : State) (k : SlotNo) (t : Time), (s.slot k).runFb.due = some t →
     (s.slot k).runFb.pin = true →
     ∃ x u, exec (.slotInputFilterExpiry k .runFb) s = .next u ∧
       Closes (setSlot k { s.slot k with
         st := x, runFb := { (s.slot k).runFb with level := true, due := none } } (reachTime t s)) u ∧
       (Settled s → (s.fs.maintPending = false ∨
           ∃ j, j ≠ k ∧ isStartingOrCoasting (s.slot j).st = true) → (u.slot k).st = x) ∧
       (match (s.slot k).st with
         | .starting d _ =>
           x = (if (s.slot k).target = .run d then .running d else .coasting (max s.now t + 45000000)) ∧
           (∀ c due, s.cu.own = .granted c due → c.slot = k →
             (∀ c' due', u.cu.own ≠ .granted c' due') ∧
             (s.sj.mode ≠ .configFault → s.li.tx.length < 10 →
               ∃ f ∈ u.li.tx, f.body = .release s.sect k c.number) ∧
             (∀ l y r, s.sj.mode ≠ .configFault → s.li.tx = l ++ y :: r →
               claimNumber y.body = some c.number → (∀ z ∈ l, claimNumber z.body ≠ some c.number) →
               LeavesWaiting (l ++ ⟨.release s.sect k c.number, y.attempts⟩ :: r) u))
         | .stopped | .startWait _ => x = .coasting (max s.now t + 45000000)
         | .running _ | .coasting _ | .tripped _ | .lockedOut _ | .localControl | .absent =>
           x = (s.slot k).st)) ∧
  (∀ (s : State) (k : SlotNo) (t : Time), (s.slot k).runFb.due = some t →
     (s.slot k).runFb.pin = false →
     ∃ x n u, exec (.slotInputFilterExpiry k .runFb) s = .next u ∧
       Closes (setSlot k { s.slot k with
         st := x, faults := n, runFb := { (s.slot k).runFb with level := false, due := none } }
         (reachTime t s)) u ∧
       (Settled s → (u.slot k).st = x) ∧
       (((∃ d, (s.slot k).st = .running d) ∧ (s.slot k).tripFb.level = false) →
         n = (s.slot k).faults + 1 ∧
         x = (if n < 2 then .coasting (max s.now t + 45000000) else .lockedOut .trip)) ∧
       (((∀ d, (s.slot k).st ≠ .running d) ∨ (s.slot k).tripFb.level = true) →
         n = (s.slot k).faults ∧ x = (s.slot k).st))

/-- TRIP_FB taken: asserted under drive it counts a fault and the slot is TRIPPED for 120 s, or at a count of
2 locked out with cause TRIP; asserted without drive the slot is TRIPPED and no fault counts; released
after the hold has expired it takes a TRIPPED slot to COASTING; nothing else acts on it.  A trip that ends a
start releases its claim: the RELEASE takes the place of a renewal CLAIM that waits unsent, which is gone, and
else joins the queue.  From a settled state the slot is in that very state after the event, unless a pending
maintenance entry that waited for this slot alone follows.  DIR_FB taken changes nothing by itself (R61, R76,
R77, R78, R80, R103, R153).  That the RELEASE keeps the attempt count of the CLAIM whose place it takes is the
model's choice, deduced (log 18). -/
def Obligations.TripAndDirectionFeedbackTaken : Prop :=
  (∀ (s : State) (k : SlotNo) (t : Time), (s.slot k).tripFb.due = some t →
    ∃ x n u, exec (.slotInputFilterExpiry k .tripFb) s = .next u ∧
      Closes (setSlot k { s.slot k with
        st := x, faults := n
        tripFb := { (s.slot k).tripFb with level := (s.slot k).tripFb.pin, due := none } }
        (reachTime t s)) u ∧
      (match (s.slot k).tripFb.pin, (s.slot k).st with
        | true, .starting _ _ | true, .running _ =>
          n = (s.slot k).faults + 1 ∧
          x = (if n < 2 then .tripped (some (max s.now t + 120000000)) else .lockedOut .trip)
        | true, .stopped | true, .startWait _ | true, .coasting _ =>
          n = (s.slot k).faults ∧ x = .tripped (some (max s.now t + 120000000))
        | false, .tripped none =>
          n = (s.slot k).faults ∧ x = .coasting (max s.now t + 45000000)
        | _, _ => n = (s.slot k).faults ∧ x = (s.slot k).st) ∧
      (Settled s → (s.fs.maintPending = false ∨
          ∃ j, j ≠ k ∧ isStartingOrCoasting (s.slot j).st = true) → (u.slot k).st = x) ∧
      (∀ c due d h, (s.slot k).tripFb.pin = true → (s.slot k).st = .starting d h →
        s.cu.own = .granted c due → c.slot = k →
        (∀ c' due', u.cu.own ≠ .granted c' due') ∧
        (s.sj.mode ≠ .configFault → s.li.tx.length < 10 →
          ∃ f ∈ u.li.tx, f.body = .release s.sect k c.number) ∧
        (∀ l y r, s.sj.mode ≠ .configFault → s.li.tx = l ++ y :: r →
          claimNumber y.body = some c.number → (∀ z ∈ l, claimNumber z.body ≠ some c.number) →
          LeavesWaiting (l ++ ⟨.release s.sect k c.number, y.attempts⟩ :: r) u))) ∧
  (∀ (s : State) (k : SlotNo) (t : Time), (s.slot k).dirFb.due = some t →
    ∃ u, exec (.slotInputFilterExpiry k .dirFb) s = .next u ∧
      Closes (setSlot k { s.slot k with
        dirFb := { (s.slot k).dirFb with level := (s.slot k).dirFb.pin, due := none } }
        (reachTime t s)) u)

/-- 100 ms after reset release every fitted slot, COASTING or LOCKED_OUT, takes its pins' levels of the release
as its first levels, and an asserted TRIP_FB or RUN_FB acts as its assertion does: TRIP_FB trips a COASTING
slot, and neither acts on a LOCKED_OUT one; an ABSENT slot takes none (R61, R63, R77, R81, R87).  That the level
of the release is taken over one that a filter took at the same moment is the model's choice (log 46). -/
def Obligations.StartingLevelsAreTaken : Prop :=
  ∀ (s : State) (t : Time), s.fs.initDue = some t → s.fs.maintPending = false →
    ∃ u, exec .slotInputInitialLevels s = .next u ∧ u.fs.initDue = none ∧ u.now = max s.now t ∧
      u.su = s.su ∧ u.pt = s.pt ∧
      ∀ k, ((s.slot k).st = .absent → u.slot k = s.slot k) ∧
        (∀ due, (s.slot k).st = .coasting due →
          (∀ i, (u.slot k).input i =
            { (s.slot k).input i with level := ((s.slot k).input i).start }) ∧
          (u.slot k).faults = (s.slot k).faults ∧
          (u.slot k).st = (if (s.slot k).tripFb.start = true
            then .tripped (some (max s.now t + 120000000)) else .coasting due)) ∧
        (∀ c, (s.slot k).st = .lockedOut c →
          (∀ i, (u.slot k).input i =
            { (s.slot k).input i with level := ((s.slot k).input i).start }) ∧
          (u.slot k).faults = (s.slot k).faults ∧ (u.slot k).st = .lockedOut c)

/-- The start timer expires in STARTING: the drive is released, the fault count rises by 1 and the slot COASTS
45 s, or at a count of 2 locks out with cause START_FAIL; its claim is released: the RELEASE takes the place of
a renewal CLAIM that waits unsent, which is gone, and else joins the queue (R69, R80, R103, R153).  That it keeps
that CLAIM's attempt count is the model's choice, deduced (log 18). -/
def Obligations.StartTimerFailsTheStart : Prop :=
  ∀ (s : State) (k : SlotNo) (d : Direction) (t : Time), (s.slot k).st = .starting d t →
    ∃ u, exec (.startTimerExpiry k) s = .next u ∧
      Closes (setSlot k { s.slot k with
        faults := (s.slot k).faults + 1
        st := if (s.slot k).faults + 1 < 2 then .coasting (max s.now t + 45000000)
          else .lockedOut .startFail } (reachTime t s)) u ∧
      driveOut u k = none ∧
      (∀ c due, s.cu.own = .granted c due → c.slot = k →
        (∀ c' due', u.cu.own ≠ .granted c' due') ∧
        (s.sj.mode ≠ .configFault → s.li.tx.length < 10 →
          ∃ f ∈ u.li.tx, f.body = .release s.sect k c.number) ∧
        (∀ l y r, s.sj.mode ≠ .configFault → s.li.tx = l ++ y :: r →
          claimNumber y.body = some c.number → (∀ z ∈ l, claimNumber z.body ≠ some c.number) →
          LeavesWaiting (l ++ ⟨.release s.sect k c.number, y.attempts⟩ :: r) u))

/-- At the end of a coast the slot samples RUN_FB: asserted it locks out as STUCK, otherwise it is STOPPED and
acts at once on the target it holds, START_WAIT for a RUN target, unless a maintenance entry is pending.  At the
end of a trip hold the slot COASTS 45 s when TRIP_FB is released, and stays TRIPPED with no timer when it is
asserted.  From a settled state the slot is in that very state after the event; but where a pending entry waited
for this coast alone it is made at this event, and the slot, unless locked out, is LOCAL, as is every RUNNING
slot, its drive released.  A STUCK slot takes a fan from the plan, so a RUNNING slot may lose its target at that
event: then it coasts, and the entry waits for it too (R56, R64, R65, R72, R74, R78, R83, R84). -/
def Obligations.CoastAndTripHoldEnd : Prop :=
  (∀ (s : State) (k : SlotNo) (t : Time), (s.slot k).st = .coasting t →
     let x : SlotState := if (s.slot k).runFb.level then .lockedOut .stuck
       else match (s.slot k).target with
         | .off => .stopped
         | .run d => if s.fs.maintPending then .stopped else .startWait d
     ∃ u, exec (.coastTimerExpiry k) s = .next u ∧ u.now = max s.now t ∧
       Closes (setSlot k { s.slot k with st := x } (reachTime t s)) u ∧
       (Settled s → (s.fs.maintPending = false ∨
           ∃ j, j ≠ k ∧ isStartingOrCoasting (s.slot j).st = true) → (u.slot k).st = x) ∧
       (Settled s → s.fs.maintPending = true → (s.sj.mode = .quiet ∨ s.sj.mode = .incident) →
         (∀ j, j ≠ k → isStartingOrCoasting (s.slot j).st = false) →
         let entered : Prop := u.sj.mode = .maintenance ∧ u.fs.maintPending = false ∧
           (u.slot k).st = (if (s.slot k).runFb.level then .lockedOut .stuck else .localControl) ∧
           ∀ j d, (s.slot j).st = .running d → (u.slot j).st = .localControl ∧ driveOut u j = none
         ((s.slot k).runFb.level = false ∨ (∀ j d, j ≠ k → (s.slot j).st ≠ .running d) → entered) ∧
         (entered ∨ ((s.slot k).runFb.level = true ∧ u.sj = s.sj ∧ u.fs.maintPending = true ∧
           (u.slot k).st = .lockedOut .stuck ∧ ∃ j d, (s.slot j).st = .running d ∧
             (u.slot j).st = .coasting (max s.now t + 45000000))))) ∧
  (∀ (s : State) (k : SlotNo) (t : Time), (s.slot k).st = .tripped (some t) →
     let x : SlotState := if (s.slot k).tripFb.level then .tripped none
       else .coasting (max s.now t + 45000000)
     ∃ u, exec (.tripHoldExpiry k) s = .next u ∧ u.now = max s.now t ∧
       Closes (setSlot k { s.slot k with st := x } (reachTime t s)) u ∧
       (Settled s → (u.slot k).st = x))

/-! ## The thrust plan -/

/-- A pace update advances the governing record's demand serial by 1 mod 256 with this station as its
source.  Its velocity set is the own reading and those of the next two stations beyond it, going away from
the span, that the planner counts and that have a valid velocity; u is their mean along the push, truncated,
and e = VT - u.  The realised thrust sums over the eligible stations the fans running in the push direction
times the weight, 4 q below 60 °C and 3 q otherwise, and C their available fans times it.  D keeps its value
where the velocity set is empty or the settle test withholds the step, and otherwise becomes D + step clamped
to 8 to max(8, C), the step being half the error, truncated, clamped to -8 to +12, and 0 for an error of 2 or
less; the change timer starts again where D changes value, and while the station stays PACE the next update
is due 5 s later (R36, R39, R41 to R46). -/
def Obligations.PaceUpdateStepsTheDemand : Prop :=
  ∀ (s : State) (t : Time) (g : Governing), s.tp.updateDue = some t → governing s = some g →
    let c : Content := g.content
    let code : Nat := strapVtarget s.sj.straps
    let beyond : List Nat :=
      if c.hi < s.station then (List.range (s.count - s.station)).map (fun i => s.station + 1 + i)
      else (List.range (s.station - 1)).map (fun i => s.station - 1 - i)
    let readings : List Int := s.su.velocity.value.toList ++
      (beyond.filterMap fun p => (viewOf s p).bind View.vel).take 2
    let along : List Int := readings.map fun v => match c.dir with | .towardB => v | .towardA => -v
    let e : Int := (25 + 5 * code : Int) - along.sum.tdiv along.length
    let w (v : View) : Nat := match v.temp with | some x => if x < 60 then 4 else 3 | none => 3
    let views : List View := (preferenceOrder s c).filterMap (viewOf s)
    let thrust : Nat := (views.map fun v =>
      (match c.dir with | .towardA => v.runA | .towardB => v.runB) * w v).sum
    let cap : Nat := (views.map fun v => v.fans * w v).sum
    let held : Demand := g.demand.getD ⟨4 * (code + 4), 0#8, s.station, none⟩
    ∃ u d, exec .paceUpdate s = .next u ∧
      (findRec u.iu.records g.id).bind demandHeld = some d ∧
      d.serial = held.serial + 1#8 ∧ d.source = s.station ∧ d.yieldDue = held.yieldDue ∧
      (readings = [] → d.d = held.d) ∧
      (readings ≠ [] →
        (thrust < held.d → (∃ x, s.tp.changeDue = some x ∧ max s.now t < x) → d.d = held.d) ∧
        (held.d ≤ thrust ∨ (∀ x, s.tp.changeDue = some x → x ≤ max s.now t) →
          (d.d : Int) = max 8 (min (max 8 (cap : Int))
            (held.d + (if e.natAbs ≤ 2 then 0 else max (-8) (min 12 (e.tdiv 2))))))) ∧
      u.tp.changeDue = (if g.demand.map Demand.d = some d.d then s.tp.changeDue
        else some (max s.now t + 30000000)) ∧
      (u.tp.pace = .pace → u.tp.updateDue = some (max s.now t + 5000000)) ∧
      u.now = max s.now t ∧ u.iu.records.map bare = s.iu.records.map bare ∧
      u.pt = s.pt ∧ u.su = s.su

/-- The change timer's expiry stops it, and nothing else changes.  At its expiry the yield hold leaves its
record's demand part, whose D, serial and source stand; where the record governs the station is no longer
HOLDING (R45, R51). -/
def Obligations.ChangeTimerAndYieldHoldEnd : Prop :=
  (∀ (s : State) (t : Time), Settled s → s.tp.changeDue = some t →
     exec .changeTimerExpiry s =
       .next { s with now := max s.now t, tp := { s.tp with changeDue := none } }) ∧
  (∀ (s : State) (id : Id) (c : Content) (d : Demand) (t : Time),
     findRec s.iu.records id = some ⟨id, .active c (some d)⟩ → d.yieldDue = some t →
     ∃ u, exec (.yieldHoldExpiry id) s = .next u ∧ u.now = max s.now t ∧
       findRec u.iu.records id = some ⟨id, .active c (some { d with yieldDue := none })⟩ ∧
       ((governing s).map Governing.id = some id → s.sj.mode ≠ .configFault →
         u.tp.pace ≠ .holding) ∧
       u.su = s.su ∧ u.pt = s.pt ∧ u.iu.records.map bare = s.iu.records.map bare)

/-- The preference order holds every eligible station once, the upstream ones first with the nearest to the
span first, then the downstream ones with the farthest first; a station's rank is its position in it,
from 0, and a station outside it has none.  A station is eligible whose record counts, whose mode is
QUIET or INCIDENT, that stands 100 m or more upstream of the span or 400 m or more downstream, and
whose temperature is not 200 °C or more (R34, R35, R37). -/
def Obligations.PreferenceOrderIsR37 : Prop :=
  ∀ (s : State) (c : Content), 1 ≤ c.lo → c.lo ≤ c.hi → c.hi ≤ s.count →
    (preferenceOrder s c).Nodup ∧
    (∀ p, p ∈ preferenceOrder s c ↔ (1 ≤ p ∧ p ≤ s.count ∧ ∃ v, viewOf s p = some v ∧
      (v.mode = .quiet ∨ v.mode = .incident) ∧
      ((upstream c p = true ∧ 100 ≤ distance p c * s.spacing) ∨
        (downstream c p = true ∧ 400 ≤ distance p c * s.spacing)) ∧
      (∀ t, v.temp = some t → t < 200))) ∧
    (preferenceOrder s c).Pairwise (fun p q =>
      (upstream c p = true ∧ upstream c q = true ∧ distance p c < distance q c) ∨
      (downstream c p = true ∧ downstream c q = true ∧ distance q c < distance p c) ∨
      (upstream c p = true ∧ downstream c q = true)) ∧
    (∀ p r, rankIn p (preferenceOrder s c) = some r ↔ (preferenceOrder s c)[r]? = some p)

/-- A recompute gives the push direction as target to as many usable slots as the own share and their number
allow, OFF to every other slot, and so never more than the available fans, and hands every slot that is not
ABSENT its target; of two usable slots it takes the one of lower state rank, then of lower number.  The share
is the least number of fans that brings the thrust of the stations ahead up to the demand, or every available
fan where they do not reach it; outside INCIDENT and for an excluded station it is 0.  The class handed over
is 0 upstream and 1 downstream, with the rank; an excluded station holds neither.  The pace state is HOLDING
while the yield hold runs, else PACE at rank 0 and NOT_PACE otherwise, and never PACE in JOINING; entering
PACE starts the 5 s update timer and, where the record holds no demand part, makes one of D_init, serial 0
and this station, with the change timer started; staying PACE leaves the update timer, and in any other state
it is stopped.  With no governing incident every target is OFF and the station NOT_PACE.  An event that leaves
the mode, the own available fans or temperature class, the governing record or its demand, a peer's liveness or
what counts of its status other than it found them, or that ends the governing record's yield hold, leaves
targets, class, rank and pace state as a recompute gives them, and every slot with its target.  An event after
which another record governs, or the governing record's direction is another, starts the change timer again,
and one after which none governs any longer stops it (R38, R39, R40, R41, R45, R53 to R58). -/
def Obligations.RecomputeTargetsTheShare : Prop :=
  ∀ s : State,
    (∀ g, governing s = some g →
      let d := g.content.dir
      let rank := rankIn s.station (preferenceOrder s g.content)
      let ahead := capacityAhead s s.station (preferenceOrder s g.content)
      let w := weight (ownView s)
      let t := (recompute s).tp.targets
      let stateRank : SlotState → Option Nat := fun
        | .running x | .starting x _ => some (if x = d then 0 else 4)
        | .startWait x => some (if x = d then 1 else 4)
        | .stopped => some 2
        | .coasting _ => some 3
        | .tripped _ | .lockedOut _ | .localControl | .absent => none
      t.count (fun x => x == .run d) = ownShare s g ∧
      ownShare s g ≤ availableFans s ∧
      (s.sj.mode ≠ .incident ∨ rank = none → ownShare s g = 0) ∧
      (s.sj.mode = .incident → rank ≠ none →
        (ownShare s g < availableFans s → demandOf s g ≤ ahead + ownShare s g * w) ∧
        (∀ n, n < ownShare s g → ahead + n * w < demandOf s g)) ∧
      (recompute s).tp.classRank =
        rank.map (fun r => (if upstream g.content s.station then 0 else 1, r)) ∧
      (∀ k, t.get k = .off ∨
        (t.get k = .run d ∧ (stateRank (s.slot k).st).isSome = true)) ∧
      (∀ j k a b, t.get j = .off → t.get k = .run d → stateRank (s.slot j).st = some a →
        stateRank (s.slot k).st = some b → b < a ∨ (b = a ∧ slotNumber k < slotNumber j)) ∧
      (recompute s).tp.pace =
        (if s.sj.mode = .joining ∨ s.sj.mode = .configFault then .notPace
         else if (g.demand.bind Demand.yieldDue).isSome = true then .holding
         else if rank = some 0 then .pace else .notPace) ∧
      ((recompute s).tp.pace = .pace → s.tp.pace ≠ .pace →
        (recompute s).tp.updateDue = some (s.now + 5000000) ∧
        (g.demand = none →
          (findRec (recompute s).iu.records g.id).bind demandHeld =
            some ⟨4 * (strapVtarget s.sj.straps + 4), 0#8, s.station, none⟩ ∧
          (recompute s).tp.changeDue = some (s.now + 30000000)) ∧
        (g.demand ≠ none →
          (recompute s).iu = s.iu ∧ (recompute s).tp.changeDue = s.tp.changeDue)) ∧
      ((recompute s).tp.pace = .pace → s.tp.pace = .pace →
        (recompute s).tp.updateDue = s.tp.updateDue ∧ (recompute s).iu = s.iu) ∧
      ((recompute s).tp.pace ≠ .pace →
        (recompute s).tp.updateDue = none ∧ (recompute s).iu = s.iu)) ∧
    (governing s = none →
      (recompute s).tp.targets = .all .off ∧ (recompute s).tp.classRank = none ∧
      (recompute s).tp.pace = .notPace ∧ (recompute s).tp.updateDue = none) ∧
    (∀ k, (s.slot k).st ≠ .absent →
      ((recompute s).slot k).target = (recompute s).tp.targets.get k) ∧
    (∀ (i : Instr) (u : State), exec i s = .next u → isReset i = false →
      u.sj.mode ≠ .configFault →
      let counted (v : State) (p : Nat) : LiveKind × Option (Mode × Nat × Nat × Nat × Option TempClass) :=
        (liveKind (peerOf v.pt p).liveness, (usableStatus (peerOf v.pt p)).map fun st =>
          (st.view.mode, st.view.fans, st.view.runA, st.view.runB, tempClass st.view.temp))
      (u.sj.mode ≠ s.sj.mode ∨ availableFans u ≠ availableFans s ∨
        tempClass u.su.heat.value ≠ tempClass s.su.heat.value ∨
        (governing u).map (fun g => (g.id, g.content)) ≠
          (governing s).map (fun g => (g.id, g.content)) ∨
        (governing u).map (demandOf u) ≠ (governing s).map (demandOf s) ∨
        (∃ p, counted u p ≠ counted s p) ∨
        (∃ a b, governing s = some a ∧ governing u = some b ∧ a.id = b.id ∧
          (a.demand.bind Demand.yieldDue).isSome = true ∧
          (b.demand.bind Demand.yieldDue).isSome = false)) →
      (∀ k, (u.slot k).st ≠ .absent → (u.slot k).target = u.tp.targets.get k) ∧
      (governing u = none →
        u.tp.targets = .all .off ∧ u.tp.classRank = none ∧ u.tp.pace = .notPace ∧
        u.tp.updateDue = none) ∧
      (∀ g, governing u = some g →
        let d := g.content.dir
        let rank := rankIn u.station (preferenceOrder u g.content)
        (∀ k, u.tp.targets.get k = .off ∨ u.tp.targets.get k = .run d) ∧
        u.tp.targets.count (fun x => x == .run d) = ownShare u g ∧
        u.tp.classRank =
          rank.map (fun r => (if upstream g.content u.station then 0 else 1, r)) ∧
        u.tp.pace =
          (if u.sj.mode = .joining then .notPace
           else if (g.demand.bind Demand.yieldDue).isSome = true then .holding
           else if rank = some 0 then .pace else .notPace))) ∧
    (∀ (i : Instr) (u : State), exec i s = .next u → isReset i = false →
      u.sj.mode ≠ .configFault →
      let told (v : State) : Option (Id × Direction) :=
        (governing v).map fun g => (g.id, g.content.dir)
      (governing u ≠ none → told u ≠ told s → u.tp.changeDue = some (u.now + 30000000)) ∧
      (governing u = none → governing s ≠ none → u.tp.changeDue = none))

/-- The governing incident is an ACTIVE record nearest to the station, the one of lowest key where several are
as near, and there is one whenever an ACTIVE record is held (R18). -/
def Obligations.GoverningIsTheNearest : Prop :=
  ∀ s : State, (s.iu.records.map Rec.id).Nodup →
    (governing s = none ↔ anyActive s = false) ∧
    ∀ g, governing s = some g →
      (g.id, g.content) ∈ actives s.iu.records ∧
      (∀ a ∈ actives s.iu.records, distance s.station g.content ≤ distance s.station a.2) ∧
      (∀ a ∈ actives s.iu.records, distance s.station a.2 = distance s.station g.content →
        (∀ b ∈ actives s.iu.records, distance s.station b.2 = distance s.station g.content →
          b.1 ≠ a.1 → keyLt a.1 b.1 = true) → a.1 = g.id)

/-! ## The incident list -/

/-- Of two ids with different origins the lower origin has the lower key; of two with the same origin the
older seq has, a being older than b when (b - a) mod 16 lies in 1 to 7, or is 8 and a is numerically
less; exactly one of two different ids has the lower key (R4). -/
def Obligations.KeysCompareAsR4 : Prop :=
  ∀ a b : Id,
    (a.origin ≠ b.origin → (keyLt a b = true ↔ a.origin < b.origin)) ∧
    (a.origin = b.origin → (keyLt a b = true ↔
      (1 ≤ (b.seq - a.seq).toNat ∧ (b.seq - a.seq).toNat ≤ 7) ∨
        ((b.seq - a.seq).toNat = 8 ∧ a.seq.toNat < b.seq.toNat))) ∧
    (a ≠ b → (keyLt a b = true ↔ keyLt b a = false))

/-- A new record finds a place while fewer than 6 are held; in a full list it takes that of the ENDED record
that ended longest ago, of highest key among those of one event; with no ENDED record there is none (R3). -/
def Obligations.MakingRoomIsR3 : Prop :=
  ∀ rs : List Rec, (rs.map Rec.id).Nodup →
    (rs.length < 6 → makeRoom rs = some rs) ∧
    (6 ≤ rs.length → (∀ r ∈ rs, isEnded r = false) → makeRoom rs = none) ∧
    (∀ r n t, 6 ≤ rs.length → r ∈ rs → r.st = .ended n t →
      (∀ x ∈ rs, ∀ m t', x.st = .ended m t' →
        n < m ∨ (n = m ∧ (x ≠ r → keyLt x.id r.id = true))) →
      makeRoom rs = some (rs.filter fun x => x != r))

/-- A merge takes the union of the spans and the direction of the contribution of higher revision, then of
greater commanding station, the held one on a full tie; it gives the same result whichever view came
first, unless the two tie with different directions or sources (R12). -/
def Obligations.MergeIsR12 : Prop :=
  ∀ a b : Content,
    (merge a b).lo = min a.lo b.lo ∧ (merge a b).hi = max a.hi b.hi ∧
    (let rank (c : Content) : Nat × Nat := (c.rev, c.cmd.getD 0)
     ((merge a b).dir, (merge a b).rev, (merge a b).cmd) =
      (if (rank a).1 < (rank b).1 ∨ ((rank a).1 = (rank b).1 ∧ (rank a).2 < (rank b).2)
       then (b.dir, b.rev, b.cmd) else (a.dir, a.rev, a.cmd)) ∧
     (rank a ≠ rank b ∨ (a.dir = b.dir ∧ a.cmd = b.cmd) → merge a b = merge b a))

/-- An INCIDENT that passes R14's checks is applied.  The frame leaves the queue, its sender is LIVE, and the
first ACTIVE record takes QUIET to INCIDENT.  With no peer SILENT: an ACTIVE one for an unknown id makes an
ACTIVE record; one for the id held ACTIVE is merged into it, and where that turns a direction this station
commanded, for another's, DIRECTION_CONFLICT is raised and the command conflict is held, CMD_CONFLICT lit for
at least 2 s (OutputsFollowTheState says when the lamp's output shows it).  A new record whose span overlaps that
of the one held, or lies at most 2 stations from it, is joined with it under the lower key; else both stand.
A notice that X was absorbed into Y gives Y its content as an ACTIVE INCIDENT does, folds an X held ACTIVE
into Y and makes X ABSORBED toward Y; where Y resolves to X no link is set; with Y held ENDED an X held
ACTIVE or not at all becomes ENDED.  One for an id held ENDED changes no record and is answered with END
unless the last answer for the id was less than 1 s ago.  Where an unknown id, or a notice's survivor, finds
six records none of which is ENDED, nothing is recorded, and where its X does, X alone is not:
INCIDENT_OVERFLOW.  One that fails a check changes no record and raises LINE_ERRORS (R12 to R17, R20, R27,
R28, R29, R109); that an INCIDENT of state ENDED must pass them too is the model's choice (log 30). -/
def Obligations.IncidentReceivedIsAppliedOrAnswered : Prop :=
  (∀ (s : State) (f : Octets) (fs : List Octets) (id : Id) (c : Content),
     s.li.rx = f :: fs → classify s.count f = .incident →
     readIncident s.count (frameBody f) = some (.active id c) →
     (s.sj.mode = .quiet ∨ s.sj.mode = .incident) → s.fs.maintPending = false →
     (∀ p ∈ s.pt, p.liveness ≠ .silent) →
     ∃ u, exec .incidentReceived s = .next u ∧ u.li.rx = fs ∧ u.now = s.now ∧ u.su = s.su ∧
       (frameSource f ≠ s.station →
         u.pt = putPeer { peerOf s.pt (frameSource f) with
           index := frameSource f, liveness := .live s.now } s.pt) ∧
       (s.iu.records = [] → ∃ r, u.iu.records = [r] ∧ r.id = id ∧ contentOf r = some c ∧
         u.sj = { s.sj with mode := .incident }) ∧
       (∀ old d, s.iu.records = [⟨id, .active old d⟩] →
         (∃ r, u.iu.records = [r] ∧ r.id = id ∧ contentOf r = some (merge old c) ∧
           u.sj = { s.sj with mode := .incident }) ∧
         (old.cmd = some s.station → (merge old c).dir ≠ old.dir →
           (merge old c).cmd ≠ some s.station →
           u.no.conflict = ⟨true, some (s.now + 2000000)⟩ ∧
           u.health.get .directionConflict = some (s.now + 60000000))) ∧
       (∀ x cx d, s.iu.records = [⟨x, .active cx d⟩] → x ≠ id →
         (cx.lo ≤ c.hi + 3 ∧ c.lo ≤ cx.hi + 3 →
           (keyLt x id = true → u.iu.records.map bare =
             [⟨x, .active (merge cx c) none⟩, ⟨id, .absorbed x⟩]) ∧
           (keyLt id x = true → u.iu.records.map bare =
             [⟨x, .absorbed id⟩, ⟨id, .active (merge c cx) none⟩])) ∧
         (¬ (cx.lo ≤ c.hi + 3 ∧ c.lo ≤ cx.hi + 3) → u.iu.records.map bare =
           [⟨x, .active cx none⟩, ⟨id, .active c none⟩]))) ∧
  (∀ (s : State) (f : Octets) (fs : List Octets) (x y : Id) (c : Content),
     s.li.rx = f :: fs → classify s.count f = .incident →
     readIncident s.count (frameBody f) = some (.absorbed x y c) →
     (s.sj.mode = .quiet ∨ s.sj.mode = .incident) → (∀ p ∈ s.pt, p.liveness ≠ .silent) →
     ∃ u, exec .incidentReceived s = .next u ∧ u.li.rx = fs ∧ u.now = s.now ∧
       (s.iu.records = [] →
         u.iu.records.map bare = [⟨y, .active c none⟩, ⟨x, .absorbed y⟩]) ∧
       (∀ old d, s.iu.records = [⟨y, .active old d⟩] →
         u.iu.records.map bare = [⟨y, .active (merge old c) none⟩, ⟨x, .absorbed y⟩]) ∧
       (∀ cx d, s.iu.records = [⟨x, .active cx d⟩] →
         u.iu.records.map bare = [⟨x, .absorbed y⟩, ⟨y, .active (merge c cx) none⟩]) ∧
       (∀ cx d old d', s.iu.records = [⟨x, .active cx d⟩, ⟨y, .active old d'⟩] →
         u.iu.records.map bare =
           [⟨x, .absorbed y⟩, ⟨y, .active (merge (merge old c) cx) none⟩]) ∧
       (∀ n t, s.iu.records = [⟨y, .ended n t⟩] →
         u.iu.records = [⟨y, .ended n t⟩, ⟨x, .ended s.iu.endings (s.now + 60000000)⟩]) ∧
       (∀ cx d n t, s.iu.records = [⟨x, .active cx d⟩, ⟨y, .ended n t⟩] →
         u.iu.records = [⟨x, .ended s.iu.endings (s.now + 60000000)⟩, ⟨y, .ended n t⟩]) ∧
       (∀ old d n t, s.iu.records = [⟨y, .active old d⟩, ⟨x, .ended n t⟩] →
         u.iu.records.map bare = [⟨y, .active (merge old c) none⟩, ⟨x, .ended n t⟩]) ∧
       (∀ cx, actives s.iu.records = [(x, cx)] →
         (resolve s.iu.records x).map Rec.id = some x →
         (resolve s.iu.records y).map Rec.id = some x →
         u.iu.records.map bare = (setContent s.iu.records x (merge cx c)).map bare)) ∧
  (∀ (s : State) (f : Octets) (fs : List Octets) (news : Id) (c : Content),
     s.li.rx = f :: fs → classify s.count f = .incident → s.sj.mode ≠ .configFault →
     6 ≤ s.iu.records.length → (∀ r ∈ s.iu.records, isEnded r = false) →
     findRec s.iu.records news = none →
     ∃ u, exec .incidentReceived s = .next u ∧ u.li.rx = fs ∧
       (readIncident s.count (frameBody f) = some (.active news c) ∨
           (∃ x, readIncident s.count (frameBody f) = some (.absorbed x news c)) →
         u.iu.records.map bare = s.iu.records.map bare ∧
         u.health.get .incidentOverflow = some (s.now + 60000000)) ∧
       (∀ y, readIncident s.count (frameBody f) = some (.absorbed news y c) →
         (findRec s.iu.records y).isSome = true →
         u.iu.records.map Rec.id = s.iu.records.map Rec.id ∧
         u.health.get .incidentOverflow = some (s.now + 60000000))) ∧
  (∀ (s : State) (f : Octets) (fs : List Octets) (id : Id) (c : Content) (n : Nat) (t : Time),
     s.li.rx = f :: fs → classify s.count f = .incident → s.sj.mode ≠ .configFault →
     readIncident s.count (frameBody f) = some (.active id c) →
     findRec s.iu.records id = some ⟨id, .ended n t⟩ → s.iu.records.length = 1 →
     ∃ u, exec .incidentReceived s = .next u ∧ u.li.rx = fs ∧ u.iu.records = s.iu.records ∧
       (withinRate s.iu.endSent id s.now = true → u.iu.endSent = s.iu.endSent) ∧
       (withinRate s.iu.endSent id s.now = false → s.li.tx.length < 10 →
         timeOf u.iu.endSent id = some s.now ∧ ∃ x ∈ u.li.tx, x.body = .ending id)) ∧
  (∀ (s : State) (f : Octets) (fs : List Octets),
     s.li.rx = f :: fs → classify s.count f = .incident → s.sj.mode ≠ .configFault →
     let o (i : Nat) : Nat := natAt (frameBody f) i
     let commanded : Bool := (octetAt (frameBody f) 4).getLsbD 1
     (o 0 = 0 ∨ s.count < o 0 ∨ o 1 / 16 = 0 ∨ 3 < o 1 / 16 ∨ o 2 = 0 ∨ s.count < o 3 ∨ o 3 < o 2 ∨
       15 < o 5 ∨ s.count < o 6 ∨ (commanded = true ∧ o 6 = 0) ∨
       (commanded = false ∧ (o 6 ≠ 0 ∨ o 5 ≠ 0)) ∨
       (o 1 / 16 = 2 ∧ (o 7 = 0 ∨ s.count < o 7 ∨ 15 < o 8 ∨
         keyLt ⟨o 7, BitVec.ofNat 4 (o 8)⟩ ⟨o 0, BitVec.ofNat 4 (o 1)⟩ = false))) →
     ∃ u, exec .incidentReceived s = .next u ∧ u.li.rx = fs ∧
       u.iu.records.map bare = s.iu.records.map bare ∧ u.iu.counter = s.iu.counter ∧
       u.health.get .lineErrors = some (s.now + 60000000))

/-- An END, and an INCIDENT that passes R14's checks with state ENDED, which is taken as an END, for an id held
ACTIVE or ABSORBED ends the record it resolves to and every record whose chain resolves to that one, each
with a 60 s ending timer; for an id held ENDED it changes no record; for an unknown id it makes an ENDED
record where there is room.  The ending timer removes its ENDED record, and no other (R14, R22, R23).  That
stand-down repeats still due stay due through either is the model's choice (log 47). -/
def Obligations.EndReceivedAndEndingTimer : Prop :=
  (∀ (s : State) (f : Octets) (fs : List Octets) (id : Id) (i : Instr),
     s.li.rx = f :: fs → s.sj.mode ≠ .configFault →
     ((i = .endReceived ∧ classify s.count f = .ending ∧ readEnd s.count (frameBody f) = some id) ∨
       (i = .incidentReceived ∧ classify s.count f = .incident ∧
         readIncident s.count (frameBody f) = some (.ended id))) →
     ∃ u, exec i s = .next u ∧ u.li.rx = fs ∧ u.now = s.now ∧
       u.iu.endRepeats = s.iu.endRepeats ∧
       (∀ g, resolve s.iu.records id = some g → isEnded g = false →
         u.iu.records.map bare = s.iu.records.map (fun r =>
           if (resolve s.iu.records r.id).map Rec.id = some g.id
           then ⟨r.id, .ended s.iu.endings (s.now + 60000000)⟩ else bare r)) ∧
       (∀ g, resolve s.iu.records id = some g → isEnded g = true →
         u.iu.records.map bare = s.iu.records.map bare) ∧
       (findRec s.iu.records id = none → s.iu.records.length < 6 →
         u.iu.records.map bare = s.iu.records.map bare ++
           [⟨id, .ended s.iu.endings (s.now + 60000000)⟩])) ∧
  (∀ (s : State) (id : Id) (n : Nat) (t : Time), findRec s.iu.records id = some ⟨id, .ended n t⟩ →
     ∃ u, exec (.endingTimerExpiry id) s = .next u ∧
       Closes { s with
         now := max s.now t
         iu := { s.iu with records := s.iu.records.filter fun r => r.id != id } } u)

/-- The defer of a re-announce ends: an INCIDENT with the content then held takes the place and the attempt
count of a frame of class 0 that waits for the id, be it an INCIDENT or an END and the queue full or not, and
joins the tail of its class where none waits; it waits on where the last INCIDENT for the id was placed less
than 1 s ago; it is cancelled where the id resolves to no ACTIVE record.  A stand-down repeat sends an END for
its id, in the same way, which counts toward the rate of END answers.  Nothing else changes.  An ACTIVE INCIDENT
for the one record held, ACTIVE, no peer SILENT, drops a pending re-announce of it where it carried what the
record then holds, and otherwise is divergence: the id is re-announced after 20 ms and 20 ms more for each
station of distance, unless a re-announce of it is pending (R21, R25, R26, R27, R153).  That a re-announce which
was pending before the INCIDENT is judged by what the record holds after it is the model's choice, deduced (log
10), and that a stand-down repeat is sent whatever the list holds for its id is the model's choice (log 47). -/
def Obligations.ReannounceAndEndRepeatPlaceTheirBulletins : Prop :=
  (∀ (s : State) (id : Id) (t : Time), Settled s → timeOf s.iu.reannounce id = some t →
     (∀ r c, findRec s.iu.records id = some r → resolvedContent s.iu.records id = some c →
       (∀ p, timeOf s.iu.incidentSent id = some p → p + 1000000 ≤ max s.now t) →
       s.sj.mode ≠ .configFault → s.li.tx.length < 10 →
       (∀ x ∈ s.li.tx, bodyId x.body ≠ some id) →
       exec (.reannounce id) s = .next { s with
         now := max s.now t
         iu := { s.iu with
           reannounce := dropTime s.iu.reannounce id
           incidentSent := stampTime s.iu.incidentSent id (max s.now t) }
         li := { s.li with
           tx := insertTail
             ⟨.incident id (match r.st with | .absorbed y => some y | _ => none) c, 0⟩ s.li.tx } }) ∧
     (∀ r c l y q, findRec s.iu.records id = some r → resolvedContent s.iu.records id = some c →
       (∀ p, timeOf s.iu.incidentSent id = some p → p + 1000000 ≤ max s.now t) →
       s.sj.mode ≠ .configFault → s.li.tx = l ++ y :: q → bodyId y.body = some id →
       (∀ x ∈ l, bodyId x.body ≠ some id) →
       exec (.reannounce id) s = .next { s with
         now := max s.now t
         iu := { s.iu with
           reannounce := dropTime s.iu.reannounce id
           incidentSent := stampTime s.iu.incidentSent id (max s.now t) }
         li := { s.li with
           tx := l ++ ⟨.incident id (match r.st with | .absorbed z => some z | _ => none) c,
             y.attempts⟩ :: q } }) ∧
     (∀ c p, resolvedContent s.iu.records id = some c → timeOf s.iu.incidentSent id = some p →
       max s.now t < p + 1000000 →
       exec (.reannounce id) s = .next { s with
         now := max s.now t
         iu := { s.iu with reannounce := putTime s.iu.reannounce id (p + 1000000) } }) ∧
     (resolvedContent s.iu.records id = none →
       exec (.reannounce id) s = .next { s with
         now := max s.now t
         iu := { s.iu with reannounce := dropTime s.iu.reannounce id } })) ∧
  (∀ (s : State) (x : IdTime) (rest : List IdTime), Settled s → s.iu.endRepeats = x :: rest →
     s.sj.mode ≠ .configFault → s.li.tx.length < 10 → (∀ y ∈ s.li.tx, bodyId y.body ≠ some x.id) →
     exec (.endRepeat x.id) s = .next { s with
       now := max s.now x.time
       iu := { s.iu with
         endRepeats := rest
         endSent := stampTime s.iu.endSent x.id (max s.now x.time) }
       li := { s.li with tx := insertTail ⟨.ending x.id, 0⟩ s.li.tx } }) ∧
  (∀ (s : State) (x : IdTime) (rest : List IdTime) (l : List TxFrame) (y : TxFrame)
      (q : List TxFrame), Settled s → s.iu.endRepeats = x :: rest →
     s.sj.mode ≠ .configFault → s.li.tx = l ++ y :: q → bodyId y.body = some x.id →
     (∀ z ∈ l, bodyId z.body ≠ some x.id) →
     exec (.endRepeat x.id) s = .next { s with
       now := max s.now x.time
       iu := { s.iu with
         endRepeats := rest
         endSent := stampTime s.iu.endSent x.id (max s.now x.time) }
       li := { s.li with tx := l ++ ⟨.ending x.id, y.attempts⟩ :: q } }) ∧
  (∀ (s : State) (f : Octets) (fs : List Octets) (id : Id) (c old : Content) (d : Option Demand),
     s.li.rx = f :: fs → classify s.count f = .incident → s.sj.mode ≠ .configFault →
     readIncident s.count (frameBody f) = some (.active id c) →
     s.iu.records = [⟨id, .active old d⟩] → (∀ p ∈ s.pt, p.liveness ≠ .silent) →
     ∃ u, exec .incidentReceived s = .next u ∧ u.li.rx = fs ∧
       (merge old c = c → u.iu.reannounce = dropTime s.iu.reannounce id) ∧
       (merge old c ≠ c →
         u.iu.reannounce = (match timeOf s.iu.reannounce id with
           | some _ => s.iu.reannounce
           | none => putTime s.iu.reannounce id
             (s.now + 20000 * (1 + distance s.station (merge old c))))))

/-! ## The peer table -/

/-- A STATUS from a peer that passes the checks is stored: the peer is LIVE at age 0 with that status part and
no stale mark; every other peer's record stands.  Each of its ids whose origin is the own index moves the
counter past it where the counter is older (in the order governing id, then entries: the model's choice, log
35).  Each id it mentions as ACTIVE, ABSORBED or governing that is held ENDED is answered with END, unless the
last answer for it was less than 1 s ago.  It is divergence, unless it lists the governing record as ENDED,
where its governing id resolves to the own governing record with another digest (then that id is re-announced)
and where its list holds no id that resolves to it (then the governing id is), after 20 ms and 20 ms more for
each station of distance, unless a re-announce of it is pending.  A STATUS that fails a check is not stored
and raises LINE_ERRORS (R5, R25, R26, R27, R109, R114, R115).  That an END answer counts toward the rate of R27
even where a full queue does not take it is the model's choice (log 38). -/
def Obligations.StatusReceivedIsStored : Prop :=
  (∀ (s : State) (f : Octets) (fs : List Octets) (st : StatusPart),
    s.li.rx = f :: fs → classify s.count f = .status → s.sj.mode ≠ .configFault →
    frameSource f ≠ s.station → readStatus s.count (frameBody f) = some st →
    ∃ u, exec .statusReceived s = .next u ∧ u.li.rx = fs ∧ u.now = s.now ∧ u.su = s.su ∧
      peerOf u.pt (frameSource f) = ⟨frameSource f, .live s.now, some st, false⟩ ∧
      (∀ p, p ≠ frameSource f → peerOf u.pt p = peerOf s.pt p) ∧
      u.iu.records.map Rec.id = s.iu.records.map Rec.id ∧
      actives u.iu.records = actives s.iu.records ∧
      (let own : List Id := st.gov.toList.map GovBlock.id ++ st.entries.map Entry.id
       u.iu.counter = (own.filter fun x => x.origin == s.station).foldl
         (fun n x => if seqOlder n (x.seq + 1#4) then x.seq + 1#4 else n) s.iu.counter) ∧
      ((s.iu.endSent.map IdTime.id).Nodup → ∀ e ∈ st.entries,
        e.state ≠ .ended ∨ st.gov.map GovBlock.id = some e.id →
        heldEnded s.iu.records e.id = true →
        (withinRate s.iu.endSent e.id s.now = true →
          timeOf u.iu.endSent e.id = timeOf s.iu.endSent e.id) ∧
        (withinRate s.iu.endSent e.id s.now = false →
          timeOf u.iu.endSent e.id = some s.now ∧
          (s.li.tx.length + st.entries.length ≤ 10 → ∃ x ∈ u.li.tx, x.body = .ending e.id))) ∧
      (∀ g, governing s = some g → (∀ e ∈ st.entries, e.id = g.id → e.state ≠ .ended) →
        let here (x : Id) : Prop := (resolve s.iu.records x).map Rec.id = some g.id
        let due : Time := s.now + 20000 * (1 + distance s.station g.content)
        (∀ b, st.gov = some b → here b.id → b.digest ≠ digest g.id g.content →
          timeOf u.iu.reannounce b.id = some ((timeOf s.iu.reannounce b.id).getD due)) ∧
        ((∀ e ∈ st.entries, e.id ≠ g.id ∧ ¬ here e.id) → findRec s.iu.records g.id ≠ none →
          timeOf u.iu.reannounce g.id = some ((timeOf s.iu.reannounce g.id).getD due)) ∧
        ((∀ b, st.gov = some b → here b.id → b.digest = digest g.id g.content) →
          (∃ e ∈ st.entries, e.id = g.id ∨ here e.id) → u.iu.reannounce = s.iu.reannounce)) ∧
      (∀ e ∈ st.entries, ∀ g, governing s = some g → e.id = g.id → e.state = .ended →
        u.iu.reannounce = s.iu.reannounce)) ∧
  (∀ (s : State) (f : Octets) (fs : List Octets),
    s.li.rx = f :: fs → classify s.count f = .status → s.sj.mode ≠ .configFault →
    frameSource f ≠ s.station → readStatus s.count (frameBody f) = none →
    ∃ u, exec .statusReceived s = .next u ∧
      Closes { s with
        li := { s.li with rx := fs }
        health := { s.health with lineErrors := some (s.now + 60000000) }
        pt := putPeer { peerOf s.pt (frameSource f) with
          index := frameSource f, liveness := .live s.now } s.pt } u)

/-- A pace-flagged STATUS for the governing incident in INCIDENT mode: a station that is NOT_PACE, or that the
sender does not stand better placed than, adopts the sender's demand, clamped to 8 to 1920, its yield hold
standing, where it holds no demand part, where the serial is newer, and where it is equal and the sender, not
itself the held source, ranks before the held source in the order as it then is, a station outside the order
after every one in it; otherwise its demand part stands.  A station that is PACE or HOLDING and worse placed
yields: it adopts whatever the serial, its yield hold runs 30 s and it is HOLDING with its update timer stopped.
A STATUS without the pace flag, without a governing block, or whose governing id does not resolve to the
governing record leaves the demand part as it stands, in every mode that holds a list (R48 to R51). -/
def Obligations.PaceFlaggedStatusIsAdoptedOrYieldedTo : Prop :=
  (∀ (s : State) (f : Octets) (fs : List Octets) (st : StatusPart) (b : GovBlock) (g : Governing),
    s.li.rx = f :: fs → classify s.count f = .status → s.sj.mode = .incident →
    s.fs.maintPending = false →
    frameSource f ≠ s.station → readStatus s.count (frameBody f) = some st → st.gov = some b →
    b.pace = true → governing s = some g →
    (resolve s.iu.records b.id).map Rec.id = some g.id →
    ∃ u, exec .statusReceived s = .next u ∧
      ((s.tp.pace = .notPace ∨ betterPlaced g.content (frameSource f) s.station = false) →
        (∀ d, g.demand = some d → serialNewer b.serial d.serial = true) →
        (findRec u.iu.records g.id).bind demandHeld = some
          ⟨max 8 (min 1920 b.demand), b.serial, frameSource f, g.demand.bind Demand.yieldDue⟩) ∧
      (∀ d, (s.tp.pace = .notPace ∨ betterPlaced g.content (frameSource f) s.station = false) →
        g.demand = some d → serialNewer b.serial d.serial = false →
        let order : List Nat := preferenceOrder u g.content
        let before : Prop := b.serial = d.serial ∧ frameSource f ≠ d.source ∧
          ∃ m, rankIn (frameSource f) order = some m ∧ ∀ n, rankIn d.source order = some n → m < n
        (before → (findRec u.iu.records g.id).bind demandHeld = some
          ⟨max 8 (min 1920 b.demand), b.serial, frameSource f, d.yieldDue⟩) ∧
        (¬ before → (findRec u.iu.records g.id).bind demandHeld = some d)) ∧
      (s.tp.pace ≠ .notPace → betterPlaced g.content (frameSource f) s.station = true →
        (findRec u.iu.records g.id).bind demandHeld = some
          ⟨max 8 (min 1920 b.demand), b.serial, frameSource f, some (s.now + 30000000)⟩ ∧
        u.tp.pace = .holding ∧ u.tp.updateDue = none)) ∧
  (∀ (s : State) (f : Octets) (fs : List Octets) (st : StatusPart) (g : Governing) (d : Demand),
    s.li.rx = f :: fs → classify s.count f = .status → s.sj.mode ≠ .configFault →
    frameSource f ≠ s.station → readStatus s.count (frameBody f) = some st →
    governing s = some g → g.demand = some d →
    (∀ b, st.gov = some b →
      b.pace = false ∨ (resolve s.iu.records b.id).map Rec.id ≠ some g.id) →
    ∃ u, exec .statusReceived s = .next u ∧
      (findRec u.iu.records g.id).bind demandHeld = some d)

/-- Demand serials compare round the circle of 256: a is newer than b when (a - b) mod 256 lies in 1 to 127;
of two serials neither is newer exactly when they are equal or 128 apart, and never are both.  Claim keys
compare by class, then rank, then serial, the first that differs deciding; of two different keys exactly
one is the better (R47, R90). -/
def Obligations.SerialsAndClaimKeysCompare : Prop :=
  (∀ a b : BitVec 8,
     (serialNewer a b = true ↔
       1 ≤ (a.toNat + 256 - b.toNat) % 256 ∧ (a.toNat + 256 - b.toNat) % 256 ≤ 127) ∧
     (serialNewer a b = false ∧ serialNewer b a = false ↔
       a = b ∨ (a.toNat + 256 - b.toNat) % 256 = 128) ∧
     ¬ (serialNewer a b = true ∧ serialNewer b a = true)) ∧
  (∀ a b : Key,
     (keyBetter a b = true ↔ a.cls < b.cls ∨ (a.cls = b.cls ∧ a.rank < b.rank) ∨
       (a.cls = b.cls ∧ a.rank = b.rank ∧ a.serial.toNat < b.serial.toNat)) ∧
     (a ≠ b → (keyBetter a b = true ↔ keyBetter b a = false)))

/-- A STATUS with the own index and another serial: the station of the lower serial enters CONFIG_FAULT and
holds what R171 says, the one of the higher serial raises DUPLICATE_INDEX for 60 s and keeps its mode,
and a STATUS with the own serial raises nothing (R118, R119, R120, R171). -/
def Obligations.DuplicateIndexIsDecidedBySerial : Prop :=
  ∀ (s : State) (f : Octets) (fs : List Octets),
    s.li.rx = f :: fs → classify s.count f = .status → s.sj.mode ≠ .configFault →
    frameSource f = s.station → statusLengthOk (frameBody f) = true →
    ∃ u, exec .statusReceived s = .next u ∧ u.li.rx = fs ∧ u.now = s.now ∧ u.su = s.su ∧
      (s.sj.serial.toNat < (statusSerial (frameBody f)).toNat →
        u.sj = { s.sj with mode := .configFault, joinDue := none } ∧ FaultHolds u) ∧
      ((statusSerial (frameBody f)).toNat < s.sj.serial.toNat →
        u.health.get .duplicateIndex = some (s.now + 60000000) ∧ u.sj.joinDue = s.sj.joinDue ∧
        u.sj.mode ≠ .configFault ∧ u.pt = s.pt ∧
        (Settled s → u.sj = s.sj ∧ u.iu = s.iu ∧ u.tp = s.tp ∧ u.fs = s.fs ∧ u.cu = s.cu)) ∧
      (statusSerial (frameBody f) = s.sj.serial →
        (∀ x, x ≠ .txCongested → u.health.get x = s.health.get x) ∧ u.pt = s.pt ∧
        (Settled s → u = { s with li := { s.li with rx := fs } }))

/-- A LIVE peer whose age reaches four of its presence periods turns SILENT, its status part kept and marked
stale; every other peer's record stands (R112, R113). -/
def Obligations.PeerTurnsSilent : Prop :=
  ∀ (s : State) (p : Nat) (h : Time), (peerOf s.pt p).liveness = .live h →
    ∃ u, exec (.peerSilent p) s = .next u ∧
      u.now = max s.now (h + 4 *
        (if ((peerOf s.pt p).status.map fun st => st.view.mode) = some .incident
         then 1000000 else 2000000)) ∧
      peerOf u.pt p = ⟨p, .silent, (peerOf s.pt p).status, (peerOf s.pt p).status.isSome⟩ ∧
      (∀ q, q ≠ p → peerOf u.pt q = peerOf s.pt q) ∧ u.su = s.su ∧ u.li.rx = s.li.rx

/-- A peer next to the end of the one ACTIVE span, last heard at 60 °C or more, is taken into the span when it
turns SILENT, and with it one next beyond that was SILENT before; the span still covers what it covered.  One last
heard below 60 °C or with an INVALID temperature, or that has no status part, stays outside: with no other peer
SILENT the record stands.  A peer already SILENT, last heard at 60 °C or more, next to the end of a span is taken in
where a record is made, by an alarm or an INCIDENT, and where an INCIDENT makes the span of the one record held
grow to it.  In each case a span so extended is re-announced (R7, R11, R15). -/
def Obligations.BurntPeerJoinsTheSpan : Prop :=
  let hotSilent (s : State) (p : Nat) (v : Int) : Prop :=
    (peerOf s.pt p).liveness = .silent ∧
      ((peerOf s.pt p).status.bind fun st => st.view.temp) = some v ∧ 60 ≤ v ∧
      1 ≤ p ∧ p ≤ s.count ∧ p ≠ s.station
  (∀ (s : State) (p : Nat) (h : Time) (st : StatusPart) (v : Int) (id : Id) (c : Content)
      (d : Option Demand),
    (peerOf s.pt p).liveness = .live h → (peerOf s.pt p).status = some st → st.view.temp = some v →
    60 ≤ v → s.iu.records = [⟨id, .active c d⟩] → c.lo ≤ c.hi → 1 ≤ p → p ≤ s.count → p ≠ s.station →
    (p = c.hi + 1 ∨ p + 1 = c.lo) →
    ∃ u r c', exec (.peerSilent p) s = .next u ∧ u.iu.records = [r] ∧ r.id = id ∧
      contentOf r = some c' ∧ c'.lo ≤ min c.lo p ∧ max c.hi p ≤ c'.hi ∧
      c'.dir = c.dir ∧ c'.rev = c.rev ∧ c'.cmd = c.cmd ∧
      (timeOf u.iu.reannounce id).isSome = true ∧
      (∀ q w, hotSilent s q w → q ≠ p → (p = c.hi + 1 ∧ q = p + 1 ∨ p + 1 = c.lo ∧ q + 1 = p) →
        c'.lo ≤ q ∧ q ≤ c'.hi)) ∧
  (∀ (s : State) (p : Nat) (h : Time) (id : Id) (c : Content) (d : Option Demand),
    (peerOf s.pt p).liveness = .live h →
    ((peerOf s.pt p).status = none ∨ ∃ st, (peerOf s.pt p).status = some st ∧
      (st.view.temp = none ∨ ∃ v, st.view.temp = some v ∧ v < 60)) →
    s.iu.records = [⟨id, .active c d⟩] →
    (∀ q ∈ s.pt, q.index ≠ p → q.liveness ≠ .silent) →
    ∃ u r, exec (.peerSilent p) s = .next u ∧ u.iu.records = [r] ∧ r.id = id ∧
      contentOf r = some c ∧ u.iu.reannounce = s.iu.reannounce) ∧
  (∀ (s : State) (t : Time) (p : Nat) (v : Int),
    s.su.manualAlarm.due = some t → s.su.manualAlarm.pin = true →
    (s.sj.mode = .quiet ∨ s.sj.mode = .incident ∨ s.sj.mode = .maintenance) → s.iu.records = [] →
    hotSilent s p v → (p = s.station + 1 ∨ p + 1 = s.station) →
    ∃ u r c', exec (.debounceExpiry .manualAlarm) s = .next u ∧ u.iu.records = [r] ∧
      r.id = ⟨s.station, s.iu.counter⟩ ∧ contentOf r = some c' ∧
      c'.lo ≤ min p s.station ∧ max p s.station ≤ c'.hi ∧
      (timeOf u.iu.reannounce r.id).isSome = true) ∧
  (∀ (s : State) (f : Octets) (fs : List Octets) (id : Id) (c m : Content) (p : Nat) (v : Int),
    s.li.rx = f :: fs → classify s.count f = .incident → s.sj.mode ≠ .configFault →
    readIncident s.count (frameBody f) = some (.active id c) →
    (s.iu.records = [] ∧ m = c ∨ ∃ old d, s.iu.records = [⟨id, .active old d⟩] ∧
      m = merge old c ∧ (m.lo ≠ old.lo ∨ m.hi ≠ old.hi)) →
    hotSilent s p v → p ≠ frameSource f → (p = m.hi + 1 ∨ p + 1 = m.lo) →
    ∃ u r c', exec .incidentReceived s = .next u ∧ u.iu.records = [r] ∧ r.id = id ∧
      contentOf r = some c' ∧ c'.lo ≤ min m.lo p ∧ max m.hi p ≤ c'.hi ∧
      c'.dir = m.dir ∧ c'.rev = m.rev ∧ c'.cmd = m.cmd ∧
      (timeOf u.iu.reannounce id).isSome = true)

/-! ## Start claims -/

/-- A CLAIM of the own section fails where its slot is outside 1 to 4, its class is neither 0 nor 1, its rank is
COUNT or more or its serial is 0, and otherwise carries its slot, number and key.  One that passes renews: it
starts its entry's age again and keeps its slot, key and phase; any other replaces its source's entry, and a
source with none gets one, the entry heard longest ago giving way where 16 are held.  An entry made or
replaced is LATE while the own settle timer runs and EARLY otherwise (said where the own claim stays SETTLING,
for as it leaves SETTLING every entry becomes EARLY).  A CLAIM for another section changes no entry; one that
fails raises LINE_ERRORS (R93, R94, R97). -/
def Obligations.ClaimReceivedEntersTheView : Prop :=
  (∀ (count : Nat) (b : Octets),
    ((natAt b 1 = 0 ∨ 4 < natAt b 1) ∨ 1 < natAt b 3 ∨ count ≤ natAt b 4 ∨
      (natAt b 5 = 0 ∧ natAt b 6 = 0 ∧ natAt b 7 = 0 ∧ natAt b 8 = 0) ↔
      readClaim count b = none) ∧
    (∀ c, readClaim count b = some c →
      slotNumber c.slot = natAt b 1 ∧ c.number = octetAt b 2 ∧ c.key.cls = natAt b 3 ∧
      c.key.rank = natAt b 4 ∧ c.key.serial.toNat =
        ((natAt b 5 * 256 + natAt b 6) * 256 + natAt b 7) * 256 + natAt b 8)) ∧
  ∀ (s : State) (f : Octets) (fs : List Octets),
    s.li.rx = f :: fs → classify s.count f = .claim → s.sj.mode ≠ .configFault →
    ∃ u, exec .claimReceived s = .next u ∧ u.li.rx = fs ∧ u.now = s.now ∧ u.su = s.su ∧
      u.iu.records.map bare = s.iu.records.map bare ∧
      (natAt (frameBody f) 0 ≠ s.sect → u.cu.view.map heardOf = s.cu.view.map heardOf) ∧
      (natAt (frameBody f) 0 = s.sect → readClaim s.count (frameBody f) = none →
        u.cu.view.map heardOf = s.cu.view.map heardOf ∧
        u.health.get .lineErrors = some (s.now + 60000000)) ∧
      (∀ c, natAt (frameBody f) 0 = s.sect → readClaim s.count (frameBody f) = some c →
        let late : Bool := match s.cu.own with | .settling _ (some _) => true | _ => false
        let view : List ClaimEntry :=
          match s.cu.view.find? fun e => e.station == frameSource f with
          | some e =>
            (s.cu.view.filter fun e => e.station != frameSource f) ++
              [if e.claim.number = c.number then { e with heardAt := s.now }
               else ⟨frameSource f, c, s.now, late⟩]
          | none =>
            (if s.cu.view.length < 16 then s.cu.view else s.cu.view.drop 1) ++
              [⟨frameSource f, c, s.now, late⟩]
        u.cu.view.map heardOf = view.map heardOf ∧
        (s.li.tx.length < 8 →
          (∀ c' due, s.cu.own = .settling c' due → u.cu.own = .settling c' due) →
          u.cu.view = view))

/-- A WITHDRAW and a RELEASE of the own section remove the entry of their source whose claim number is theirs,
and nothing else from the view; for another section they remove nothing (R95). -/
def Obligations.WithdrawAndReleaseRemoveTheEntry : Prop :=
  ∀ (s : State) (f : Octets) (fs : List Octets) (i : Instr),
    s.li.rx = f :: fs → s.sj.mode ≠ .configFault →
    (i = .withdrawReceived ∧ classify s.count f = .withdraw ∨
      i = .releaseReceived ∧ classify s.count f = .release) →
    ∃ u, exec i s = .next u ∧ u.li.rx = fs ∧ u.now = s.now ∧ u.su = s.su ∧
      u.iu.records.map bare = s.iu.records.map bare ∧
      (natAt (frameBody f) 0 = s.sect →
        1 ≤ natAt (frameBody f) 1 → natAt (frameBody f) 1 ≤ 4 →
        u.cu.view.map heardOf = (s.cu.view.filter fun e =>
          !(e.station == frameSource f && e.claim.number == octetAt (frameBody f) 2)).map heardOf) ∧
      (natAt (frameBody f) 0 = s.sect →
        (natAt (frameBody f) 1 = 0 ∨ 4 < natAt (frameBody f) 1) →
        u.cu.view.map heardOf = s.cu.view.map heardOf ∧
        u.health.get .lineErrors = some (s.now + 60000000)) ∧
      (natAt (frameBody f) 0 ≠ s.sect → u.cu.view.map heardOf = s.cu.view.map heardOf)

/-- A frame of bad version, kind, source or fixed length leaves the queue and raises LINE_ERRORS; it reaches no
block, and its sender is LIVE only where version, kind and source are good (R110, R147). -/
def Obligations.InvalidFrameRaisesLineErrors : Prop :=
  ∀ (s : State) (f : Octets) (fs : List Octets),
    s.li.rx = f :: fs → classify s.count f = .invalid → s.sj.mode ≠ .configFault →
    ∃ u, exec .invalidFrameTaken s = .next u ∧
      Closes { s with
        li := { s.li with rx := fs }
        health := { s.health with lineErrors := some (s.now + 60000000) }
        pt := if kindOf f ≠ .invalid ∧ sourceOk s.count f = true ∧ frameSource f ≠ s.station
          then putPeer { peerOf s.pt (frameSource f) with
            index := frameSource f, liveness := .live s.now } s.pt
          else s.pt } u

/-- Where the conditions of R98 hold a CLAIM is placed for the lowest-numbered slot in START_WAIT: its number
is the counter, which advances by 1 mod 256, its key the class and rank of the plan and the own serial;
the own claim is SETTLING and the spacing timer runs 1 s.  That timer's expiry stops it; with no slot in
START_WAIT nothing else changes, and where the other conditions hold the next CLAIM is placed at the same
event.  While the spacing timer runs the claim test is not met, and no command but that expiry leaves a new claim
SETTLING (R90, R92, R98, R99). -/
def Obligations.ClaimPlacementAndSpacing : Prop :=
  (∀ (s : State) (k : SlotNo) (cls rank : Nat),
     s.cu.own = .none → s.cu.spacingDue = none → s.cu.view.length < 2 → s.sj.mode = .incident →
     (governing s).isSome = true → s.fs.maintPending = false → s.tp.classRank = some (cls, rank) →
     isStartWait (s.slot k).st = true →
     (∀ j, isStartWait (s.slot j).st = true → slotNumber k ≤ slotNumber j) →
     s.li.tx.length < 10 →
     exec .claimPlacement s = .next { s with
       cu := { s.cu with
         counter := s.cu.counter + 1#8
         own := .settling ⟨k, s.cu.counter, ⟨cls, rank, s.sj.serial⟩⟩ none
         spacingDue := some (s.now + 1000000) }
       li := { s.li with
         tx := insertTail ⟨.claim s.sect ⟨k, s.cu.counter, ⟨cls, rank, s.sj.serial⟩⟩, 0⟩ s.li.tx } }) ∧
  (∀ (s : State) (t : Time), Settled s → s.cu.spacingDue = some t →
     ((∀ k, isStartWait (s.slot k).st = false) →
       exec .claimSpacingExpiry s =
         .next { s with now := max s.now t, cu := { s.cu with spacingDue := none } }) ∧
     (∀ k cls rank, s.cu.own = .none → waitingSlot s = some k → s.tp.classRank = some (cls, rank) →
       s.sj.mode = .incident → (governing s).isSome = true → s.fs.maintPending = false →
       s.cu.view.length < 2 → s.li.tx.length < 10 →
       ∃ u, exec .claimSpacingExpiry s = .next u ∧
         u.cu.own = .settling ⟨k, s.cu.counter, ⟨cls, rank, s.sj.serial⟩⟩ none ∧
         u.cu.counter = s.cu.counter + 1#8 ∧
         u.cu.spacingDue = some (max s.now t + 1000000))) ∧
  (∀ s : State, s.cu.spacingDue ≠ none → claimTest s = none) ∧
  (∀ (i : Instr) (s u : State) (c : Claim) (due : Option Time), exec i s = .next u →
     s.cu.spacingDue ≠ none → i ≠ .claimSpacingExpiry → u.cu.own = .settling c due →
     ∃ due', s.cu.own = .settling c due')

/-- The settle timer expires: with fewer than 2 claims ahead (every EARLY entry, and every LATE one of better
key) the claim is GRANTED, its renewal is due in 10 s and its slot is STARTING with a 15 s start timer and
its drive asserted; otherwise the claim is withdrawn and the slots stand.  Every LATE entry becomes EARLY.  A
SETTLING claim is withdrawn too at the event at which its slot leaves START_WAIT: on TRIP_FB or RUN_FB taken
asserted, on MAINT asserted with no slot starting or coasting, and where an END ends the one record held, so
that no target is left.  Withdrawn, a CLAIM that waits unsent is gone from the queue and no WITHDRAW is queued;
else a WITHDRAW joins the tail of its class, unless 10 frames wait; a CLAIM for another slot may follow at the
same event, once the spacing timer has run out (R66, R67, R77, R79, R84, R97, R98,
R100, R101, R153). -/
def Obligations.SettleGrantsOrWithdraws : Prop :=
  (∀ (s : State) (c : Claim) (t : Time) (d : Direction), Settled s → s.sj.held = false →
    s.cu.own = .settling c (some t) → (s.slot c.slot).st = .startWait d →
    ∃ u, exec .settleExpiry s = .next u ∧ u.now = max s.now t ∧
      u.cu.view = s.cu.view.map (fun e => { e with late := false }) ∧
      ((s.cu.view.filter fun e => !e.late || keyBetter e.claim.key c.key).length < 2 →
        u.cu.own = .granted c (some (max s.now t + 10000000)) ∧
        (u.slot c.slot).st = .starting d (max s.now t + 15000000) ∧
        driveOut u c.slot = some d) ∧
      (2 ≤ (s.cu.view.filter fun e => !e.late || keyBetter e.claim.key c.key).length →
        u.cu.own = .none ∧ u.fs = s.fs ∧
        (s.sj.mode ≠ .configFault → s.li.tx.length < 10 →
          (∀ x ∈ s.li.tx, claimNumber x.body ≠ some c.number) →
          u.li = { s.li with
            tx := insertTail ⟨.withdraw s.sect c.slot c.number, 0⟩ s.li.tx }))) ∧
  (∀ (s : State) (i : Instr) (c : Claim) (due : Option Time), Settled s →
    s.cu.own = .settling c due → s.sj.mode ≠ .configFault →
    ((i = .slotInputFilterExpiry c.slot .tripFb ∧ (s.slot c.slot).tripFb.due ≠ none ∧
        (s.slot c.slot).tripFb.pin = true) ∨
      (i = .slotInputFilterExpiry c.slot .runFb ∧ (s.slot c.slot).runFb.due ≠ none ∧
        (s.slot c.slot).runFb.pin = true) ∨
      (i = .debounceExpiry .maint ∧ s.su.maint.due ≠ none ∧ s.su.maint.pin = true ∧
        s.sj.mode = .incident ∧ ∀ k, isStartingOrCoasting (s.slot k).st = false) ∨
      (i = .endReceived ∧ s.sj.mode = .incident ∧ ∃ f fs id x d, s.li.rx = f :: fs ∧
        classify s.count f = .ending ∧ readEnd s.count (frameBody f) = some id ∧
        s.iu.records = [⟨id, .active x d⟩])) →
    ∃ u, exec i s = .next u ∧ isStartWait (u.slot c.slot).st = false ∧
      (s.cu.spacingDue ≠ none → u.cu.own = .none) ∧ (∀ x t, u.cu.own ≠ .granted x t) ∧
      (∀ x t, u.cu.own = .settling x t → x.slot ≠ c.slot ∧ x.number = s.cu.counter ∧ t = none) ∧
      u.cu.view.map heardOf = s.cu.view.map heardOf ∧ (∀ e ∈ u.cu.view, e.late = false) ∧
      (∀ l y r, s.li.tx = l ++ y :: r → claimNumber y.body = some c.number →
        (∀ z ∈ l, claimNumber z.body ≠ some c.number) → LeavesWaiting (l ++ r) u) ∧
      (s.li.tx.length < 10 → (∀ x ∈ s.li.tx, claimNumber x.body ≠ some c.number) →
        LeavesWaiting (insertTail ⟨.withdraw s.sect c.slot c.number, 0⟩ s.li.tx) u))

/-- The renewal of a grant places its CLAIM again; the timer is over and nothing else changes.  An entry of the
claim view that reaches an age of 12 s is removed, and no other station's (R96, R102). -/
def Obligations.ClaimRenewalAndEntryExpiry : Prop :=
  (∀ (s : State) (c : Claim) (t : Time), Settled s → s.cu.own = .granted c (some t) →
     s.sj.mode ≠ .configFault → s.li.tx.length < 10 →
     exec .claimRenewal s = .next { s with
       now := max s.now t
       cu := { s.cu with own := .granted c none }
       li := { s.li with tx := insertTail ⟨.claim s.sect c, 0⟩ s.li.tx } }) ∧
  (∀ (s : State) (p : Nat) (e : ClaimEntry), (s.cu.view.find? fun x => x.station == p) = some e →
     ∃ u, exec (.claimEntryExpiry p) s = .next u ∧
       Closes { s with
         now := max s.now (e.heardAt + 12000000)
         cu := { s.cu with view := s.cu.view.filter fun x => x.station != p } } u)

/-! ## STATUS timing, health flags and lamps -/

/-- A STATUS reports the own record: the mode, the slots STOPPED, START_WAIT, STARTING, RUNNING or COASTING as
available fans (none in MAINTENANCE), those RUNNING toward A and toward B, the held temperature and velocity;
the governing record's id, digest, demand, serial and pace flag; every held record with its state, by origin
and seq; and the eight health flags.  The presence timer places such a STATUS, in the place of one that waits
or at the tail of the queue, and starts both timers again.  The spacing timer's expiry stops it, and serves an
early request by such a STATUS.  Nothing else changes.  A change of the mode, the available fans or a running
count, the health octet, the governing block, the list entries or the temperature class or validity asks for
an early STATUS, which is placed at once or, while the spacing timer runs, held; an event that changes none of
them asks for none (R30, R59, R82, R117, R140, R143, R144, R145, R153). -/
def Obligations.StatusTimersPlaceAStatus : Prop :=
  (∀ s : State,
     let fans (p : SlotState → Bool) : Nat := (allSlots.filter fun k => p (s.slot k).st).length
     (ownStatus s).view = {
       mode := s.sj.mode
       fans := if s.sj.mode = .maintenance ∨ s.sj.mode = .configFault then 0
         else fans fun
           | .stopped | .startWait _ | .starting _ _ | .running _ | .coasting _ => true
           | .tripped _ | .lockedOut _ | .localControl | .absent => false
       runA := fans fun x => x == .running .towardA
       runB := fans fun x => x == .running .towardB
       temp := s.su.heat.value
       vel := s.su.velocity.value } ∧
     (governing s = none → (ownStatus s).gov = none) ∧
     (∀ g, governing s = some g → (ownStatus s).gov = some {
       id := g.id
       digest := digest g.id g.content
       demand := (match g.demand with
         | some d => d.d
         | none => 4 * (strapVtarget s.sj.straps + 4))
       serial := (match g.demand with | some d => d.serial | none => 0#8)
       pace := decide (s.tp.pace = .pace) }) ∧
     (∀ e, e ∈ (ownStatus s).entries ↔ ∃ r ∈ s.iu.records, e = ⟨r.id, match r.st with
       | .active _ _ => .active | .absorbed _ => .absorbed | .ended _ _ => .ended⟩) ∧
     (ownStatus s).entries.length = s.iu.records.length ∧
     ((s.iu.records.map Rec.id).Nodup → (ownStatus s).entries.Pairwise fun a b =>
       a.id.origin < b.id.origin ∨
         (a.id.origin = b.id.origin ∧ a.id.seq.toNat < b.id.seq.toNat)) ∧
     (∀ f, (healthOctet s).getLsbD (match f with
       | .rxOverrun => 7 | .lineErrors => 6 | .txCongested => 5 | .sensorInvalid => 4
       | .directionConflict => 3 | .incidentOverflow => 2 | .duplicateIndex => 1) =
       (s.health.get f).isSome) ∧
     ((healthOctet s).getLsbD 0 = true ↔ ∃ k c, (s.slot k).st = .lockedOut c)) ∧
  (∀ (s : State) (t : Time), Settled s → s.ba.presenceDue = some t → s.sj.mode ≠ .configFault →
     let body : Body := .status s.sj.serial (ownStatus s) (healthOctet s)
     let after (q : List TxFrame) : State := { s with
       now := max s.now t
       ba := ⟨some (max s.now t + (if s.sj.mode = .incident then 1000000 else 2000000)),
         some (max s.now t + 100000), false⟩
       li := { s.li with tx := q } }
     ((∀ x ∈ s.li.tx, bodyClass x.body ≠ 2) → s.li.tx.length < 10 →
       exec .presenceTimerExpiry s = .next (after (s.li.tx ++ [⟨body, 0⟩]))) ∧
     (∀ l x r, s.li.tx = l ++ x :: r → (∀ y ∈ l, bodyClass y.body ≠ 2) → bodyClass x.body = 2 →
       exec .presenceTimerExpiry s = .next (after (l ++ ⟨body, x.attempts⟩ :: r)))) ∧
  (∀ (s : State) (t : Time), Settled s → s.ba.spacingDue = some t →
     (s.ba.early = false → exec .statusSpacingExpiry s =
       .next { s with now := max s.now t, ba := { s.ba with spacingDue := none } }) ∧
     (s.ba.early = true → s.sj.mode ≠ .configFault → s.li.tx.length < 10 →
       (∀ x ∈ s.li.tx, bodyClass x.body ≠ 2) →
       exec .statusSpacingExpiry s = .next { s with
         now := max s.now t
         ba := ⟨some (max s.now t + (if s.sj.mode = .incident then 1000000 else 2000000)),
           some (max s.now t + 100000), false⟩
         li := { s.li with
           tx := s.li.tx ++ [⟨.status s.sj.serial (ownStatus s) (healthOctet s), 0⟩] } })) ∧
  (∀ (i : Instr) (s u : State), exec i s = .next u → isReset i = false → i ≠ .joinTimerExpiry →
     (u.sj.mode = .quiet ∨ u.sj.mode = .incident ∨ u.sj.mode = .maintenance) →
     let same : Prop := u.sj.mode = s.sj.mode ∧ (ownStatus u).view.fans = (ownStatus s).view.fans ∧
       (ownStatus u).view.runA = (ownStatus s).view.runA ∧
       (ownStatus u).view.runB = (ownStatus s).view.runB ∧ healthOctet u = healthOctet s ∧
       (ownStatus u).gov = (ownStatus s).gov ∧ (ownStatus u).entries = (ownStatus s).entries ∧
       tempClass u.su.heat.value = tempClass s.su.heat.value
     (¬ same → (u.ba.spacingDue.isSome = true ∧ u.ba.early = true) ∨
       (u.ba = ⟨some (u.now + (if u.sj.mode = .incident then 1000000 else 2000000)),
           some (u.now + 100000), false⟩ ∧
         (u.li.tx.length < 10 → ∃ x ∈ u.li.tx,
           x.body = .status u.sj.serial (ownStatus u) (healthOctet u)))) ∧
     (same → i ≠ .presenceTimerExpiry → i ≠ .statusSpacingExpiry → u.ba = s.ba))

/-- A health flag reads 0 once its 60 s hold timer has run out, and the other flags stand.  A command lamp
goes dark at its timer's expiry; CMD_CONFLICT does so only while neither push input is
asserted, and otherwise stays lit with no timer, until the debounced release of a push input leaves neither
asserted; a release before that timer has run out leaves the lamp as it is.  A slot fault output's phase ends: lit becomes dark and
dark lit, for 0.5 s each in a TRIP lockout, 0.125 s each in a STUCK lockout, 0.1 s lit and 1.9 s dark when
TRIPPED.  At a lamp's and an output's timer and at that release nothing else changes (R20, R134, R145, R162,
R163). -/
def Obligations.FlagLampAndFaultOutputTimers : Prop :=
  (∀ (s : State) (f : TimedFlag) (t : Time), Settled s → s.health.get f = some t →
     s.li.tx.length < 10 →
     ∃ u, exec (.healthFlagExpiry f) s = .next u ∧ u.now = max s.now t ∧
       u.health = s.health.set f none ∧ u.fs = s.fs ∧ u.cu = s.cu ∧ u.iu = s.iu ∧ u.su = s.su ∧
       u.pt = s.pt ∧ u.tp = s.tp ∧ u.sj = s.sj ∧ u.no = s.no) ∧
  (∀ (s : State) (t : Time), Settled s →
     (s.no.acceptDue = some t → exec (.cmdLampExpiry .accept) s =
       .next { s with now := max s.now t, no := { s.no with acceptDue := none } }) ∧
     (s.no.refusedDue = some t → exec (.cmdLampExpiry .refused) s =
       .next { s with now := max s.now t, no := { s.no with refusedDue := none } }) ∧
     (s.no.conflict.due = some t → exec (.cmdLampExpiry .conflict) s =
       .next { s with
         now := max s.now t
         no := { s.no with conflict :=
           ⟨s.no.conflict.lit && (s.su.pushA.level || s.su.pushB.level), none⟩ } })) ∧
  (∀ (s : State) (i j : Input) (t : Time), Settled s →
     (i = .pushA ∧ j = .pushB ∨ i = .pushB ∧ j = .pushA) →
     (s.su.input i).due = some t → (s.su.input i).pin = false →
     exec (.debounceExpiry i) s = .next { s with
       now := max s.now t
       su := s.su.setInput i ⟨false, false, none⟩
       no := { s.no with conflict :=
         if s.no.conflict.due = none ∧ (s.su.input j).level = false then ⟨false, none⟩
         else s.no.conflict } }) ∧
  (∀ (s : State) (k : SlotNo) (lit : Bool) (t len : Time), Settled s →
     s.no.flash.get k = ⟨lit, some t⟩ →
     ((s.slot k).st = .lockedOut .trip ∧ len = 500000 ∨
       (s.slot k).st = .lockedOut .stuck ∧ len = 125000 ∨
       (∃ h, (s.slot k).st = .tripped h) ∧ len = (if lit then 1900000 else 100000)) →
     exec (.slotFltPhase k) s = .next { s with
       now := max s.now t
       no := { s.no with flash := s.no.flash.set k ⟨!lit, some (max s.now t + len)⟩ } })

/-- While the part runs its outputs follow its state.  A slot's drive is asserted in STARTING and RUNNING, in
their direction.  The signs and SMOKE follow the governing incident, INCIDENT the mode, HEALTH the mode and
the flags, and CMD_ACCEPT and CMD_REFUSED their timers.  CMD_CONFLICT shows the held command conflict, but is
dark until the first command after JOINING; that a conflict still held then shows from that command on is the
model's choice (log 34).  A slot fault output shows its
phase: it is lit steadily for a START_FAIL lockout, flashes for a TRIP or STUCK lockout and for TRIPPED, and is
dark for every other state, which every step keeps; a pattern begins with its lit phase at the event at which
its slot comes to call for it, and runs on by its phase timer alone.  TXEN is asserted while a frame is being
sent, and TXD gives its characters back to back, start bit 0, eight data bits with the lowest first, stop bit 1,
and otherwise 1.  A sensor's select is asserted until the end of its transaction, and SNS_CLK gives 24 pulses at
100 kHz from 50 µs after the select, resting low otherwise; on an empty queue the transaction ends with the
sample of what SNS_DI shows at the 24 rising edges, most significant bit first (R60, R123, R149, R159 to R164).
The half of a period in which the clock is high (log 33) and the levels of SNS_DI (a free value, log 39) are the
model's. -/
def Obligations.OutputsFollowTheState : Prop :=
  (∀ s : State, s.sj.held = false →
    (∀ k d, (pinsOf s).drive.get k = some d ↔
      (s.slot k).st = .running d ∨ ∃ due, (s.slot k).st = .starting d due) ∧
    (s.sj.mode = .configFault → (pinsOf s).sign = none ∧ (pinsOf s).smoke = false) ∧
    (governing s = none → (pinsOf s).sign = none ∧ (pinsOf s).smoke = false) ∧
    (∀ g, governing s = some g → s.sj.mode ≠ .configFault →
      ((pinsOf s).sign = some .signA ↔
        s.station < g.content.lo ∨
          (g.content.lo ≤ s.station ∧ s.station ≤ g.content.hi ∧ g.content.dir = .towardB)) ∧
      ((pinsOf s).sign ≠ none) ∧
      ((pinsOf s).smoke = true ↔
        downstream g.content s.station = true ∨ ∃ v, s.su.opacity.value = some v ∧ 50 ≤ v)) ∧
    ((pinsOf s).incident = true ↔ s.sj.mode = .incident) ∧
    ((pinsOf s).health = true ↔
      s.sj.mode = .configFault ∨ (∃ f, s.health.get f ≠ none) ∨
        ∃ k c, (s.slot k).st = .lockedOut c) ∧
    ((pinsOf s).cmdAccept = true ↔ s.no.acceptDue ≠ none) ∧
    ((pinsOf s).cmdRefused = true ↔ s.no.refusedDue ≠ none) ∧
    ((pinsOf s).cmdConflict = true ↔ s.no.commanded = true ∧ s.no.conflict.lit = true) ∧
    (∀ k, (pinsOf s).slotFault.get k = (s.no.flash.get k).lit) ∧
    (FlashShows s → ∀ k,
      ((s.slot k).st = .lockedOut .startFail → (pinsOf s).slotFault.get k = true) ∧
      ((∀ c, (s.slot k).st ≠ .lockedOut c) → (∀ h, (s.slot k).st ≠ .tripped h) →
        (pinsOf s).slotFault.get k = false)) ∧
    (s.li.sending = none → (pinsOf s).txEnable = false ∧ (pinsOf s).txData = true) ∧
    (∀ x, s.li.sending = some x → (pinsOf s).txEnable = true ∧
      let n : Nat := (s.now - x.since) / s.bit
      ∀ o, (frameOctets s.station x.frame.body)[n / 10]? = some o →
        (pinsOf s).txData =
          (if n % 10 = 0 then false else if n % 10 = 9 then true else o.getLsbD (n % 10 - 1))) ∧
    (s.su.transaction = none → (pinsOf s).select = none ∧ (pinsOf s).clock = false) ∧
    (∀ x, s.su.transaction = some x →
      let edge (n : Nat) : Time := x.ends - 240 + 10 * n
      (pinsOf s).select = (if s.now < x.ends then some x.sensor else none) ∧
      ((pinsOf s).clock = true ↔
        s.now < x.ends ∧ ∃ n, n < 24 ∧ edge n ≤ s.now ∧ s.now < edge n + 5) ∧
      ∃ high low check : Octet, ⟨x.ends, .sensorSample high low check⟩ ∈ allDues s ∧
        ∀ n, n < 8 →
          high.getLsbD (7 - n) = Config.sensorLine (edge n) ∧
          low.getLsbD (7 - n) = Config.sensorLine (edge (8 + n)) ∧
          check.getLsbD (7 - n) = Config.sensorLine (edge (16 + n)))) ∧
  FlashShows State.reset ∧
  (∀ s u : State, FlashShows s → HeldInReset s → step s = .next u → FlashShows u) ∧
  (∀ (i : Instr) (s u : State) (k : SlotNo), exec i s = .next u → isReset i = false →
    i ≠ .slotFltPhase k →
    u.no.flash.get k =
      (if patternOf (s.slot k).st = patternOf (u.slot k).st then s.no.flash.get k
       else match (u.slot k).st with
         | .lockedOut .startFail => ⟨true, none⟩
         | .lockedOut .trip => ⟨true, some (u.now + 500000)⟩
         | .lockedOut .stuck => ⟨true, some (u.now + 125000)⟩
         | .tripped _ => ⟨true, some (u.now + 100000)⟩
         | .stopped | .startWait _ | .starting _ _ | .running _ | .coasting _ | .localControl
         | .absent => ⟨false, none⟩))

/-! ## The tunnel line -/

/-- A send starts once the line has been idle for 16 bit times and the defer of the head frame: 4 bit times
for each unit of STATION mod 8 at the first try, else the back-off of R157; the frame leaves the queue and
nothing else changes, but that a frame in assembly is discarded with LINE_ERRORS, which, where the flag was 0,
asks for an early STATUS.  A frame read back whole is gone from the part; a sent CLAIM of the own SETTLING
claim starts its settle timer of 300 ms; nothing else changes (R99, R144, R150, R152, R154, R155, R157).  That a
send which a placement lets start at once is a command of its own, after every placement of that event, is the
model's choice (log 49). -/
def Obligations.SendStartAndSuccess : Prop :=
  (∀ (s : State) (x : TxFrame) (rest : List TxFrame), Settled s → s.li.tx = x :: rest →
     s.li.sending = none → s.sj.held = false →
     (s.sj.mode = .quiet ∨ s.sj.mode = .incident ∨ s.sj.mode = .maintenance) →
     let t : Time := max s.now (s.li.idleSince + (16 +
       (if x.attempts = 0 then 4 * (s.station % 8)
        else 20 * (1 + (s.sj.serial.toNat % 256 + x.attempts) % 16))) * s.bit)
     let sent : State := { s with
       now := t
       li := { s.li with tx := rest, sending := some ⟨x, t⟩, synced := false, assembly := [] } }
     let cut : State := { sent with
       health := { s.health with lineErrors := some (t + 60000000) } }
     (s.li.assembly = [] → exec .sendStart s = .next sent) ∧
     (s.li.assembly ≠ [] →
       (s.health.lineErrors ≠ none → exec .sendStart s = .next cut) ∧
       (s.health.lineErrors = none →
         (s.ba.spacingDue ≠ none →
           exec .sendStart s = .next { cut with ba := { s.ba with early := true } }) ∧
         (s.ba.spacingDue = none →
           let body : Body := .status s.sj.serial (ownStatus cut) (healthOctet cut)
           let placed (q : List TxFrame) : State := { cut with
             ba := ⟨some (t + (if s.sj.mode = .incident then 1000000 else 2000000)),
               some (t + 100000), false⟩
             li := { cut.li with tx := q } }
           ((∀ y ∈ rest, bodyClass y.body ≠ 2) → rest.length < 10 →
             exec .sendStart s = .next (placed (rest ++ [⟨body, 0⟩]))) ∧
           (∀ l y r, rest = l ++ y :: r → (∀ z ∈ l, bodyClass z.body ≠ 2) →
             bodyClass y.body = 2 →
             exec .sendStart s = .next (placed (l ++ ⟨body, y.attempts⟩ :: r))))))) ∧
  (∀ (s : State) (x : Sending), Settled s → s.li.sending = some x →
     let t : Time := max s.now (x.since + 10 * (frameOctets s.station x.frame.body).length * s.bit)
     let li : Li := { s.li with sending := none, idleSince := t, synced := false }
     ((∀ c, s.cu.own ≠ .settling c none ∨ claimNumber x.frame.body ≠ some c.number) →
       exec .sendSuccess s = .next { s with now := t, li := li }) ∧
     (∀ c, s.cu.own = .settling c none → claimNumber x.frame.body = some c.number →
       exec .sendSuccess s = .next { s with
         now := t, li := li, cu := { s.cu with own := .settling c (some (t + 300000)) } }))

/-- A character read back differently ends the attempt and raises the frame's attempt count by 1.  A STATUS at
a count of 8 is dropped with TX_CONGESTED, in CONFIG_FAULT too, and where a newer STATUS waits too (of the
two cases of R156 that then fit, the model takes this one: its choice, deduced, log 26).  Any other frame is
in CONFIG_FAULT dropped; elsewhere a frame whose successor waits is discarded and hands its higher count on,
a CLAIM whose WITHDRAW waits goes with it, and any other returns to the head of its class, or, where 10
frames wait, is dropped with TX_CONGESTED, a SETTLING claim of its number then being no longer held.  A frame
dropped is gone: nothing else changes but that the flag, where it read 0, asks for an early STATUS, which is
held while the spacing timer runs and else placed in the place of one that waits, at the tail, or nowhere where
10 frames wait (R91, R143, R144, R145, R152, R153, R156, R158). -/
def Obligations.CollisionReturnsTheFrame : Prop :=
  ∀ (s : State) (x : Sending) (k : Nat) (o : Octet) (back : BitVec 10), Settled s →
    s.li.sending = some x → (frameOctets s.station x.frame.body)[k]? = some o →
    back ≠ characterBits o →
    let t : Time := max s.now (x.since + 10 * (k + 1) * s.bit)
    let n : Nat := x.frame.attempts + 1
    let after (q : List TxFrame) : State := { s with
      now := t
      li := { s.li with sending := none, idleSince := t, synced := false, tx := q } }
    let congested : State := { after s.li.tx with
      health := { s.health with txCongested := some (t + 60000000) } }
    let body : Body := .status s.sj.serial (ownStatus congested) (healthOctet congested)
    let placed (q : List TxFrame) : State := { congested with
      ba := ⟨some (t + (if s.sj.mode = .incident then 1000000 else 2000000)),
        some (t + 100000), false⟩
      li := { congested.li with tx := q } }
    let dropped : Prop :=
      (s.health.txCongested ≠ none ∨ s.sj.mode = .joining ∨ s.sj.mode = .configFault →
        exec (.collision k back) s = .next congested) ∧
      (s.health.txCongested = none →
        (s.sj.mode = .quiet ∨ s.sj.mode = .incident ∨ s.sj.mode = .maintenance) →
        (s.ba.spacingDue ≠ none → exec (.collision k back) s =
          .next { congested with ba := { s.ba with early := true } }) ∧
        (s.ba.spacingDue = none →
          ((∀ y ∈ s.li.tx, bodyClass y.body ≠ 2) → exec (.collision k back) s =
            .next (placed (if s.li.tx.length < 10 then s.li.tx ++ [⟨body, 0⟩] else s.li.tx))) ∧
          (∀ l y r, s.li.tx = l ++ y :: r → (∀ z ∈ l, bodyClass z.body ≠ 2) →
            bodyClass y.body = 2 → exec (.collision k back) s =
              .next (placed (l ++ ⟨body, y.attempts⟩ :: r)))))
    (bodyClass x.frame.body = 2 → 8 ≤ n → dropped) ∧
    ((bodyClass x.frame.body ≠ 2 ∨ n < 8) →
      (s.sj.mode = .configFault → exec (.collision k back) s = .next (after s.li.tx)) ∧
      (s.sj.mode ≠ .configFault →
        (∀ l y r, s.li.tx = l ++ y :: r → takesPlaceOf y.body x.frame.body = true →
          (∀ z ∈ l, takesPlaceOf z.body x.frame.body = false) →
          exec (.collision k back) s =
            .next (after (l ++ { y with attempts := max y.attempts n } :: r))) ∧
        ((∀ y ∈ s.li.tx, takesPlaceOf y.body x.frame.body = false) →
          (∀ m l y r, claimNumber x.frame.body = some m → s.li.tx = l ++ y :: r →
            isWithdrawNo m y = true → (∀ z ∈ l, isWithdrawNo m z = false) →
            exec (.collision k back) s = .next (after (l ++ r))) ∧
          ((∀ m, claimNumber x.frame.body = some m → ∀ y ∈ s.li.tx, isWithdrawNo m y = false) →
            (s.li.tx.length < 10 →
              exec (.collision k back) s =
                .next (after (insertHead { x.frame with attempts := n } s.li.tx))) ∧
            (10 ≤ s.li.tx.length →
              ((∀ c due, s.cu.own = .settling c due → claimNumber x.frame.body ≠ some c.number) →
                dropped) ∧
              (∀ c due, s.cu.own = .settling c due → claimNumber x.frame.body = some c.number →
                ∃ u, exec (.collision k back) s = .next u ∧ u.cu.own = .none ∧
                  u.health.get .txCongested = some (t + 60000000) ∧
                  u.li.tx.length = s.li.tx.length ∧
                  (u.li.tx.filter fun y => bodyClass y.body != 2) =
                    (s.li.tx.filter fun y => bodyClass y.body != 2)))))))

/-- The receiver synchronises once the line has been idle for 16 bit times.  A character is no part of a frame
while the receiver is unsynchronised, and joins the frame in assembly while that still lacks octets; the
idle count starts again at the end of its stop bit.  Nothing else changes.  Where the own first start bit falls
in the same bit time as the character's, the station sends and does not take it (R150, R154).  That a character
is one event, whose start bit comes at the command and whose stop bit ends ten bit times later, is the model's
own choice (log 25), and so are how bit times are told apart (log 42) and that a stop bit that reads 0 ends its
character as one that reads 1 does, the idle count running from its end (log 43). -/
def Obligations.ReceiverTakesCharacters : Prop :=
  (∀ s : State, Settled s → s.sj.held = false → s.li.sending = none → s.li.synced = false →
     exec .receiverSync s = .next { s with
       now := max s.now (s.li.idleSince + 16 * s.bit), li := { s.li with synced := true } }) ∧
  (∀ (s : State) (o : Octet) (stop : Bool), Settled s → s.sj.held = false → s.li.sending = none →
     (∀ due, sendDue s = some due → s.now < due) →
     let t : Time := s.now + 10 * s.bit
     (s.li.synced = false → exec (.characterReceived o stop) s =
       .next { s with now := t, li := { s.li with idleSince := t } }) ∧
     (s.li.synced = true → stop = true →
       (s.li.assembly.length < 2 ∨
         (frameLength (s.li.assembly ++ [o]) ≤ 120 ∧
           s.li.assembly.length + 1 < 5 + frameLength (s.li.assembly ++ [o]))) →
       exec (.characterReceived o stop) s = .next { s with
         now := t, li := { s.li with idleSince := t, assembly := s.li.assembly ++ [o] } })) ∧
  (∀ (s : State) (i : Instr) (o : Octet) (stop : Bool) (due : Time) (x : TxFrame)
      (rest : List TxFrame), s.li.tx = x :: rest → sendDue s = some due → due ≤ s.now →
     (i = .characterReceived o stop ∨ i = .frameArrival o ∨ i = .rxFrameDiscard o stop) →
     exec i s = exec .sendStart s ∧ ∃ u, exec i s = .next u ∧ u.now = s.now ∧
       u.li.sending = some ⟨x, s.now⟩ ∧ u.li.rx = s.li.rx ∧ u.li.assembly = [] ∧
       u.li.idleSince = s.li.idleSince)

/-- The last CRC octet of a frame whose CRC matches brings the frame to the tail of the receive queue, or,
where 16 frames are held, loses it with RX_OVERRUN; the frames already held stay.  A stop bit of 0, a
length above 120 or a CRC that does not match discards the frame in assembly, and so do two idle character
times before it is complete: LINE_ERRORS is raised and the receiver is unsynchronised (R139, R150, R151).  A
character is taken where the own send is not due at its start (ReceiverTakesCharacters says what happens there).
That the receiver stays synchronised after an overrun is the model's choice, deduced (log 13), and that a
character is one event of ten bit times is its own choice (log 25), as is that the idle count runs from the end
of a stop bit that reads 0 as from that of a good one (log 43). -/
def Obligations.FramesArriveOrAreDiscarded : Prop :=
  (∀ (s : State) (o : Octet) (f : Octets), Settled s → s.sj.held = false → s.li.sending = none →
     (∀ due, sendDue s = some due → s.now < due) → s.li.synced = true → f = s.li.assembly ++ [o] → frameLength f ≤ 120 →
     f.length = 5 + frameLength f →
     f.drop (3 + frameLength f) = octets16 (crc (f.take (3 + frameLength f))) →
     let t : Time := s.now + 10 * s.bit
     (s.li.rx.length < 16 → exec (.frameArrival o) s = .next { s with
       now := t, li := { s.li with idleSince := t, assembly := [], rx := s.li.rx ++ [f] } }) ∧
     (16 ≤ s.li.rx.length → ∃ u, exec (.frameArrival o) s = .next u ∧
       Closes { s with
         now := t, li := { s.li with idleSince := t, assembly := [] }
         health := { s.health with rxOverrun := some (t + 60000000) } } u)) ∧
  (∀ (s : State) (o : Octet) (stop : Bool), s.sj.held = false → s.li.sending = none →
     let f : Octets := s.li.assembly ++ [o]
     let after (t idle : Time) : State := { s with
       now := t, li := { s.li with idleSince := idle, assembly := [], synced := false }
       health := { s.health with lineErrors := some (t + 60000000) } }
     (s.li.synced = true → (∀ due, sendDue s = some due → s.now < due) →
       (stop = false ∨ (3 ≤ f.length ∧ 120 < frameLength f) ∨
         (3 ≤ f.length ∧ f.length = 5 + frameLength f ∧
           f.drop (3 + frameLength f) ≠ octets16 (crc (f.take (3 + frameLength f))))) →
       ∃ u, exec (.rxFrameDiscard o stop) s = .next u ∧
         Closes (after (s.now + 10 * s.bit) (s.now + 10 * s.bit)) u) ∧
     (s.li.assembly ≠ [] → ∃ u, exec .rxTruncation s = .next u ∧
       Closes (after (max s.now (s.li.idleSince + 20 * s.bit)) s.li.idleSince) u))


/-! ## What holds of every run -/

/-- The state right after power-on is sound in every sense the next statements keep (R168). -/
def Obligations.ResetStateIsSound : Prop :=
  Settled State.reset ∧ HeldInReset State.reset ∧ StartsGranted State.reset ∧
    FaultQuiet State.reset ∧ Bounded State.reset ∧ OneLamp State.reset ∧ ChainsEnd State.reset ∧
    QueueForm State.reset ∧ ViewForm State.reset ∧ ClaimFrames State.reset

/-- Every step leaves the part settled, and while a reset holds it, as the reset left it: the mode QUIET or
INCIDENT is the one the list calls for, the own claim stands with its slot, and no CLAIM and no
maintenance entry that could be made is left unmade (R28, R83, R98, R101, R103, R168). -/
def Obligations.StepKeepsTheStateSettled : Prop :=
  ∀ s u : State, Settled s → HeldInReset s → step s = .next u → Settled u ∧ HeldInReset u

/-- Every step keeps it true that a slot is STARTING only while the own claim is GRANTED for it, and so that
at most one slot is STARTING (R67). -/
def Obligations.StepKeepsStartsGranted : Prop :=
  ∀ s u : State, StartsGranted s → HeldInReset s → step s = .next u →
    StartsGranted u ∧
      ∀ j k, isStarting (u.slot j).st = true → isStarting (u.slot k).st = true → j = k

/-- No command, frame, input or timer takes the station out of CONFIG_FAULT but the two resets, and every
step keeps there what R171 says it holds: no record, no claim heard, no peer, no frame waiting, every
target OFF, no START_WAIT, every lamp dark (R88, R148, R158, R171). -/
def Obligations.ConfigFaultHoldsUntilReset : Prop :=
  ∀ s u : State, FaultQuiet s → HeldInReset s → step s = .next u →
    FaultQuiet u ∧
      (s.sj.mode = .configFault → u.sj.mode ≠ .configFault →
        ∃ c rest, s.pending = c :: rest ∧ (c = .powerOnReset ∨ c = .externalReset))

/-- Every step keeps the capacities, 6 records with distinct ids, 16 claim entries, 16 received frames, 10
frames waiting and a history of 11 samples, holds at most one time for each id answered with END, and never
lights CMD_ACCEPT and CMD_REFUSED together.  It keeps the transmit queue in order of class, with at most one
STATUS and at most one frame for any one incident id, and the claim view in order of hearing, with at most one
entry for each station.  Where no frame that waits or is being sent, nor the own claim, carries the number the
next CLAIM would carry, it keeps the claim frames as the Claim Unit's conduct leaves them, and so at most two of
them waiting: one of a claim that is over, then the CLAIM of the own claim (R3, R27, R93, R94, R106, R129, R151,
R152, R162). -/
def Obligations.StepKeepsTheCapacities : Prop :=
  (∀ s u : State, Bounded s → OneLamp s → step s = .next u → Bounded u ∧ OneLamp u) ∧
  (∀ s u : State, QueueForm s → step s = .next u → QueueForm u) ∧
  (∀ s u : State, ViewForm s → step s = .next u → ViewForm u) ∧
  (∀ s u : State, QueueForm s → FaultQuiet s → ClaimFrames s → NextNumberFree s →
    step s = .next u → ClaimFrames u) ∧
  (∀ s : State, ClaimFrames s → (claimFrames s.li.tx).length ≤ 2)

/-- Every step keeps the links of the list: an ABSORBED record's link goes to a strictly lower key and its
chain ends at a held ACTIVE record, never at an ENDED one (R3, R13, R17). -/
def Obligations.StepKeepsTheChains : Prop :=
  ∀ s u : State, Bounded s → ChainsEnd s → step s = .next u → ChainsEnd u

/-- At no step is a slot's drive exchanged for the other: a drive that is asserted stands or is released; and
a drive comes to be asserted only at the expiry of the settle timer of the own claim for that slot, or at the
debounced release of MAINT in MAINTENANCE, in a LOCAL slot whose RUN_FB is asserted and whose TRIP_FB is not,
on the side that DIR_FB reads (R60, R65, R67, R75, R86). -/
def Obligations.DrivesAreNeverExchanged : Prop :=
  ∀ (i : Instr) (s u : State) (k : SlotNo), exec i s = .next u → HeldInReset s →
    (∀ d, driveOut s k = some d → driveOut u k = some d ∨ driveOut u k = none) ∧
    (∀ d, driveOut s k = none → driveOut u k = some d →
      (i = .settleExpiry ∧ ∃ c t, s.cu.own = .settling c (some t) ∧ c.slot = k ∧
        (s.slot k).st = .startWait d) ∨
      (i = .debounceExpiry .maint ∧ s.sj.mode = .maintenance ∧ s.su.maint.pin = false ∧
        (s.slot k).st = .localControl ∧ (s.slot k).runFb.level = true ∧
        (s.slot k).tripFb.level = false ∧
        d = (if (s.slot k).dirFb.level then .towardB else .towardA)))

/-- A LOCKED_OUT slot keeps its state, its cause and its released drive through every command but a power-on
reset, a reset release and a maintenance exit; an external reset keeps its cause (R81, R87). -/
def Obligations.LockoutsStand : Prop :=
  ∀ (i : Instr) (s u : State) (k : SlotNo) (c : LockCause), exec i s = .next u →
    (s.slot k).st = .lockedOut c → i ≠ .powerOnReset → (∀ w, i ≠ .resetRelease w) →
    ¬ (i = .debounceExpiry .maint ∧ s.sj.mode = .maintenance) →
    (u.slot k).st = .lockedOut c ∧ driveOut u k = none

/-- No command changes the factory serial, none but RESET_RELEASE changes the straps, none takes the clock
back, and none touches the queue of commands (R165, R167; the clock and the queue are the model's own,
log 1). -/
def Obligations.CommandsKeepStrapsSerialAndQueue : Prop :=
  ∀ (i : Instr) (s u : State), exec i s = .next u →
    u.sj.serial = s.sj.serial ∧ ((∀ w, i ≠ .resetRelease w) → u.sj.straps = s.sj.straps) ∧
    s.now ≤ u.now ∧ u.pending = s.pending

/-- While a record is held its span never shrinks, and there is no road back: whatever the command, an ACTIVE
record that is still held is ACTIVE with a span at least as wide, or ABSORBED, or ENDED, an ABSORBED one is
ABSORBED or ENDED, and an ENDED one is never ACTIVE and stays ENDED, its timer running on; but from a full
list an ENDED record may be evicted and its id made anew by one notice (the model's choice, deduced, log 28).
The list is within its capacity, its chains end as R3 and R13 say, and the id the station would declare next
is not held, as R5 has it but for a wrap of the circle of seqs (log 15) (R1, R2). -/
def Obligations.SpansOnlyGrow : Prop :=
  ∀ (i : Instr) (s u : State), exec i s = .next u → isReset i = false →
    Bounded s → ChainsEnd s → findRec s.iu.records ⟨s.station, s.iu.counter⟩ = none →
    ∀ r ∈ s.iu.records, ∀ r' ∈ u.iu.records, r'.id = r.id →
      match r.st, r'.st with
      | .active c _, .active c' _ => c'.lo ≤ c.lo ∧ c.hi ≤ c'.hi
      | .active _ _, .absorbed _ | .active _ _, .ended _ _ => True
      | .absorbed _, .absorbed _ | .absorbed _, .ended _ _ => True
      | .absorbed _, .active _ _ | .ended _ _, .active _ _ => False
      | .ended n t, .ended n' t' => s.iu.records.length < 6 → n' = n ∧ t' = t
      | .ended _ _, .absorbed _ => s.iu.records.length = 6

/-- What a sender's layout of a bulletin puts into a frame, a receiver of the same bore reads back, for every
kind with every field at every value the handbook admits, and the frame passes the CRC and is taken for
its kind (R138 to R142, R147). -/
def Obligations.BulletinsReadBackAsSent : Prop :=
  ∀ (count source : Nat) (b : Body), 2 ≤ count → count ≤ 120 → 1 ≤ source → source ≤ count →
    (match b with
      | .status serial p _ => serial ≠ 0#32 ∧ statusFits count p = true
      | .incident id y c => idFits count id = true ∧ contentFits count c = true ∧
          (∀ z, y = some z → idFits count z = true ∧ keyLt z id = true)
      | .ending id => idFits count id = true
      | .claim sect c => sect < 16 ∧ claimFits count c = true
      | .withdraw sect _ _ | .release sect _ _ => sect < 16) →
    let f := frameOctets source b
    frameCrcOk f = true ∧ frameSource f = source ∧ frameBody f = bodyOctets b ∧
    f.length ≤ 43 ∧
    (match b with
      | .status serial p h => classify count f = .status ∧
          readStatus count (frameBody f) = some p ∧ statusSerial (frameBody f) = serial ∧
          octetAt (frameBody f) 11 = h
      | .incident id y c => classify count f = .incident ∧
          readIncident count (frameBody f) =
            some (match y with | none => .active id c | some z => .absorbed id z c)
      | .ending id => classify count f = .ending ∧ readEnd count (frameBody f) = some id
      | .claim sect c => classify count f = .claim ∧ natAt (frameBody f) 0 = sect ∧
          readClaim count (frameBody f) = some c
      | .withdraw sect k n => classify count f = .withdraw ∧ natAt (frameBody f) 0 = sect ∧
          readSlot (natAt (frameBody f) 1) = some k ∧ octetAt (frameBody f) 2 = n
      | .release sect k n => classify count f = .release ∧ natAt (frameBody f) 0 = sect ∧
          readSlot (natAt (frameBody f) 1) = some k ∧ octetAt (frameBody f) 2 = n)
end

