-- ==== Sys2Proof/Laws/State.lean ====
section
/-! SUPPORT. The record updates of the machine, field by field: each lemma is true by `rfl`, so that no
later proof unfolds an update. -/

namespace Sys2Proof.Machine

/-! ## reachTime -/

@[simp] theorem reachTime_pending (t : Time) (s : State) : (reachTime t s).pending = s.pending := rfl
@[simp] theorem reachTime_sj (t : Time) (s : State) : (reachTime t s).sj = s.sj := rfl
@[simp] theorem reachTime_iu (t : Time) (s : State) : (reachTime t s).iu = s.iu := rfl
@[simp] theorem reachTime_tp (t : Time) (s : State) : (reachTime t s).tp = s.tp := rfl
@[simp] theorem reachTime_fs (t : Time) (s : State) : (reachTime t s).fs = s.fs := rfl
@[simp] theorem reachTime_cu (t : Time) (s : State) : (reachTime t s).cu = s.cu := rfl
@[simp] theorem reachTime_pt (t : Time) (s : State) : (reachTime t s).pt = s.pt := rfl
@[simp] theorem reachTime_su (t : Time) (s : State) : (reachTime t s).su = s.su := rfl
@[simp] theorem reachTime_li (t : Time) (s : State) : (reachTime t s).li = s.li := rfl
@[simp] theorem reachTime_ba (t : Time) (s : State) : (reachTime t s).ba = s.ba := rfl
@[simp] theorem reachTime_health (t : Time) (s : State) : (reachTime t s).health = s.health := rfl
@[simp] theorem reachTime_no (t : Time) (s : State) : (reachTime t s).no = s.no := rfl
@[simp] theorem reachTime_now (t : Time) (s : State) : (reachTime t s).now = max s.now t := rfl

/-! ## setMode -/

@[simp] theorem setMode_pending (m : Mode) (s : State) : (setMode m s).pending = s.pending := rfl
@[simp] theorem setMode_now (m : Mode) (s : State) : (setMode m s).now = s.now := rfl
@[simp] theorem setMode_iu (m : Mode) (s : State) : (setMode m s).iu = s.iu := rfl
@[simp] theorem setMode_tp (m : Mode) (s : State) : (setMode m s).tp = s.tp := rfl
@[simp] theorem setMode_fs (m : Mode) (s : State) : (setMode m s).fs = s.fs := rfl
@[simp] theorem setMode_cu (m : Mode) (s : State) : (setMode m s).cu = s.cu := rfl
@[simp] theorem setMode_pt (m : Mode) (s : State) : (setMode m s).pt = s.pt := rfl
@[simp] theorem setMode_su (m : Mode) (s : State) : (setMode m s).su = s.su := rfl
@[simp] theorem setMode_li (m : Mode) (s : State) : (setMode m s).li = s.li := rfl
@[simp] theorem setMode_ba (m : Mode) (s : State) : (setMode m s).ba = s.ba := rfl
@[simp] theorem setMode_health (m : Mode) (s : State) : (setMode m s).health = s.health := rfl
@[simp] theorem setMode_no (m : Mode) (s : State) : (setMode m s).no = s.no := rfl
@[simp] theorem setMode_sj_mode (m : Mode) (s : State) : (setMode m s).sj.mode = m := rfl
@[simp] theorem setMode_sj_held (m : Mode) (s : State) : (setMode m s).sj.held = s.sj.held := rfl
@[simp] theorem setMode_sj_straps (m : Mode) (s : State) : (setMode m s).sj.straps = s.sj.straps := rfl
@[simp] theorem setMode_sj_serial (m : Mode) (s : State) : (setMode m s).sj.serial = s.sj.serial := rfl
@[simp] theorem setMode_sj_joinDue (m : Mode) (s : State) : (setMode m s).sj.joinDue = s.sj.joinDue := rfl

/-! ## setSlot -/

@[simp] theorem setSlot_pending (k : SlotNo) (sl : Slot) (s : State) : (setSlot k sl s).pending = s.pending := rfl
@[simp] theorem setSlot_now (k : SlotNo) (sl : Slot) (s : State) : (setSlot k sl s).now = s.now := rfl
@[simp] theorem setSlot_sj (k : SlotNo) (sl : Slot) (s : State) : (setSlot k sl s).sj = s.sj := rfl
@[simp] theorem setSlot_iu (k : SlotNo) (sl : Slot) (s : State) : (setSlot k sl s).iu = s.iu := rfl
@[simp] theorem setSlot_tp (k : SlotNo) (sl : Slot) (s : State) : (setSlot k sl s).tp = s.tp := rfl
@[simp] theorem setSlot_cu (k : SlotNo) (sl : Slot) (s : State) : (setSlot k sl s).cu = s.cu := rfl
@[simp] theorem setSlot_pt (k : SlotNo) (sl : Slot) (s : State) : (setSlot k sl s).pt = s.pt := rfl
@[simp] theorem setSlot_su (k : SlotNo) (sl : Slot) (s : State) : (setSlot k sl s).su = s.su := rfl
@[simp] theorem setSlot_li (k : SlotNo) (sl : Slot) (s : State) : (setSlot k sl s).li = s.li := rfl
@[simp] theorem setSlot_ba (k : SlotNo) (sl : Slot) (s : State) : (setSlot k sl s).ba = s.ba := rfl
@[simp] theorem setSlot_health (k : SlotNo) (sl : Slot) (s : State) : (setSlot k sl s).health = s.health := rfl
@[simp] theorem setSlot_no (k : SlotNo) (sl : Slot) (s : State) : (setSlot k sl s).no = s.no := rfl
@[simp] theorem setSlot_fs_slots (k : SlotNo) (sl : Slot) (s : State) : (setSlot k sl s).fs.slots = s.fs.slots.set k sl := rfl
@[simp] theorem setSlot_fs_maintPending (k : SlotNo) (sl : Slot) (s : State) : (setSlot k sl s).fs.maintPending = s.fs.maintPending := rfl
@[simp] theorem setSlot_fs_initDue (k : SlotNo) (sl : Slot) (s : State) : (setSlot k sl s).fs.initDue = s.fs.initDue := rfl

/-! ## setTx -/

@[simp] theorem setTx_pending (q : List TxFrame) (s : State) : (setTx q s).pending = s.pending := rfl
@[simp] theorem setTx_now (q : List TxFrame) (s : State) : (setTx q s).now = s.now := rfl
@[simp] theorem setTx_sj (q : List TxFrame) (s : State) : (setTx q s).sj = s.sj := rfl
@[simp] theorem setTx_iu (q : List TxFrame) (s : State) : (setTx q s).iu = s.iu := rfl
@[simp] theorem setTx_tp (q : List TxFrame) (s : State) : (setTx q s).tp = s.tp := rfl
@[simp] theorem setTx_fs (q : List TxFrame) (s : State) : (setTx q s).fs = s.fs := rfl
@[simp] theorem setTx_cu (q : List TxFrame) (s : State) : (setTx q s).cu = s.cu := rfl
@[simp] theorem setTx_pt (q : List TxFrame) (s : State) : (setTx q s).pt = s.pt := rfl
@[simp] theorem setTx_su (q : List TxFrame) (s : State) : (setTx q s).su = s.su := rfl
@[simp] theorem setTx_ba (q : List TxFrame) (s : State) : (setTx q s).ba = s.ba := rfl
@[simp] theorem setTx_health (q : List TxFrame) (s : State) : (setTx q s).health = s.health := rfl
@[simp] theorem setTx_no (q : List TxFrame) (s : State) : (setTx q s).no = s.no := rfl
@[simp] theorem setTx_li_tx (q : List TxFrame) (s : State) : (setTx q s).li.tx = q := rfl
@[simp] theorem setTx_li_sending (q : List TxFrame) (s : State) : (setTx q s).li.sending = s.li.sending := rfl
@[simp] theorem setTx_li_rx (q : List TxFrame) (s : State) : (setTx q s).li.rx = s.li.rx := rfl
@[simp] theorem setTx_li_synced (q : List TxFrame) (s : State) : (setTx q s).li.synced = s.li.synced := rfl
@[simp] theorem setTx_li_assembly (q : List TxFrame) (s : State) : (setTx q s).li.assembly = s.li.assembly := rfl
@[simp] theorem setTx_li_idleSince (q : List TxFrame) (s : State) : (setTx q s).li.idleSince = s.li.idleSince := rfl

/-! ## setRx -/

@[simp] theorem setRx_pending (q : List Octets) (s : State) : (setRx q s).pending = s.pending := rfl
@[simp] theorem setRx_now (q : List Octets) (s : State) : (setRx q s).now = s.now := rfl
@[simp] theorem setRx_sj (q : List Octets) (s : State) : (setRx q s).sj = s.sj := rfl
@[simp] theorem setRx_iu (q : List Octets) (s : State) : (setRx q s).iu = s.iu := rfl
@[simp] theorem setRx_tp (q : List Octets) (s : State) : (setRx q s).tp = s.tp := rfl
@[simp] theorem setRx_fs (q : List Octets) (s : State) : (setRx q s).fs = s.fs := rfl
@[simp] theorem setRx_cu (q : List Octets) (s : State) : (setRx q s).cu = s.cu := rfl
@[simp] theorem setRx_pt (q : List Octets) (s : State) : (setRx q s).pt = s.pt := rfl
@[simp] theorem setRx_su (q : List Octets) (s : State) : (setRx q s).su = s.su := rfl
@[simp] theorem setRx_ba (q : List Octets) (s : State) : (setRx q s).ba = s.ba := rfl
@[simp] theorem setRx_health (q : List Octets) (s : State) : (setRx q s).health = s.health := rfl
@[simp] theorem setRx_no (q : List Octets) (s : State) : (setRx q s).no = s.no := rfl
@[simp] theorem setRx_li_rx (q : List Octets) (s : State) : (setRx q s).li.rx = q := rfl
@[simp] theorem setRx_li_tx (q : List Octets) (s : State) : (setRx q s).li.tx = s.li.tx := rfl
@[simp] theorem setRx_li_sending (q : List Octets) (s : State) : (setRx q s).li.sending = s.li.sending := rfl
@[simp] theorem setRx_li_synced (q : List Octets) (s : State) : (setRx q s).li.synced = s.li.synced := rfl
@[simp] theorem setRx_li_assembly (q : List Octets) (s : State) : (setRx q s).li.assembly = s.li.assembly := rfl
@[simp] theorem setRx_li_idleSince (q : List Octets) (s : State) : (setRx q s).li.idleSince = s.li.idleSince := rfl

/-! ## setOwn -/

@[simp] theorem setOwn_pending (o : OwnClaim) (s : State) : (setOwn o s).pending = s.pending := rfl
@[simp] theorem setOwn_now (o : OwnClaim) (s : State) : (setOwn o s).now = s.now := rfl
@[simp] theorem setOwn_sj (o : OwnClaim) (s : State) : (setOwn o s).sj = s.sj := rfl
@[simp] theorem setOwn_iu (o : OwnClaim) (s : State) : (setOwn o s).iu = s.iu := rfl
@[simp] theorem setOwn_tp (o : OwnClaim) (s : State) : (setOwn o s).tp = s.tp := rfl
@[simp] theorem setOwn_fs (o : OwnClaim) (s : State) : (setOwn o s).fs = s.fs := rfl
@[simp] theorem setOwn_pt (o : OwnClaim) (s : State) : (setOwn o s).pt = s.pt := rfl
@[simp] theorem setOwn_su (o : OwnClaim) (s : State) : (setOwn o s).su = s.su := rfl
@[simp] theorem setOwn_li (o : OwnClaim) (s : State) : (setOwn o s).li = s.li := rfl
@[simp] theorem setOwn_ba (o : OwnClaim) (s : State) : (setOwn o s).ba = s.ba := rfl
@[simp] theorem setOwn_health (o : OwnClaim) (s : State) : (setOwn o s).health = s.health := rfl
@[simp] theorem setOwn_no (o : OwnClaim) (s : State) : (setOwn o s).no = s.no := rfl
@[simp] theorem setOwn_cu_own (o : OwnClaim) (s : State) : (setOwn o s).cu.own = o := rfl
@[simp] theorem setOwn_cu_counter (o : OwnClaim) (s : State) : (setOwn o s).cu.counter = s.cu.counter := rfl
@[simp] theorem setOwn_cu_view (o : OwnClaim) (s : State) : (setOwn o s).cu.view = s.cu.view := rfl
@[simp] theorem setOwn_cu_spacingDue (o : OwnClaim) (s : State) : (setOwn o s).cu.spacingDue = s.cu.spacingDue := rfl

/-! ## setView -/

@[simp] theorem setView_pending (v : List ClaimEntry) (s : State) : (setView v s).pending = s.pending := rfl
@[simp] theorem setView_now (v : List ClaimEntry) (s : State) : (setView v s).now = s.now := rfl
@[simp] theorem setView_sj (v : List ClaimEntry) (s : State) : (setView v s).sj = s.sj := rfl
@[simp] theorem setView_iu (v : List ClaimEntry) (s : State) : (setView v s).iu = s.iu := rfl
@[simp] theorem setView_tp (v : List ClaimEntry) (s : State) : (setView v s).tp = s.tp := rfl
@[simp] theorem setView_fs (v : List ClaimEntry) (s : State) : (setView v s).fs = s.fs := rfl
@[simp] theorem setView_pt (v : List ClaimEntry) (s : State) : (setView v s).pt = s.pt := rfl
@[simp] theorem setView_su (v : List ClaimEntry) (s : State) : (setView v s).su = s.su := rfl
@[simp] theorem setView_li (v : List ClaimEntry) (s : State) : (setView v s).li = s.li := rfl
@[simp] theorem setView_ba (v : List ClaimEntry) (s : State) : (setView v s).ba = s.ba := rfl
@[simp] theorem setView_health (v : List ClaimEntry) (s : State) : (setView v s).health = s.health := rfl
@[simp] theorem setView_no (v : List ClaimEntry) (s : State) : (setView v s).no = s.no := rfl
@[simp] theorem setView_cu_view (v : List ClaimEntry) (s : State) : (setView v s).cu.view = v := rfl
@[simp] theorem setView_cu_counter (v : List ClaimEntry) (s : State) : (setView v s).cu.counter = s.cu.counter := rfl
@[simp] theorem setView_cu_own (v : List ClaimEntry) (s : State) : (setView v s).cu.own = s.cu.own := rfl
@[simp] theorem setView_cu_spacingDue (v : List ClaimEntry) (s : State) : (setView v s).cu.spacingDue = s.cu.spacingDue := rfl

/-! ## allEarly -/

@[simp] theorem allEarly_pending (s : State) : (allEarly s).pending = s.pending := rfl
@[simp] theorem allEarly_now (s : State) : (allEarly s).now = s.now := rfl
@[simp] theorem allEarly_sj (s : State) : (allEarly s).sj = s.sj := rfl
@[simp] theorem allEarly_iu (s : State) : (allEarly s).iu = s.iu := rfl
@[simp] theorem allEarly_tp (s : State) : (allEarly s).tp = s.tp := rfl
@[simp] theorem allEarly_fs (s : State) : (allEarly s).fs = s.fs := rfl
@[simp] theorem allEarly_pt (s : State) : (allEarly s).pt = s.pt := rfl
@[simp] theorem allEarly_su (s : State) : (allEarly s).su = s.su := rfl
@[simp] theorem allEarly_li (s : State) : (allEarly s).li = s.li := rfl
@[simp] theorem allEarly_ba (s : State) : (allEarly s).ba = s.ba := rfl
@[simp] theorem allEarly_health (s : State) : (allEarly s).health = s.health := rfl
@[simp] theorem allEarly_no (s : State) : (allEarly s).no = s.no := rfl
@[simp] theorem allEarly_cu_view (s : State) : (allEarly s).cu.view = s.cu.view.map fun e => { e with late := false } := rfl
@[simp] theorem allEarly_cu_counter (s : State) : (allEarly s).cu.counter = s.cu.counter := rfl
@[simp] theorem allEarly_cu_own (s : State) : (allEarly s).cu.own = s.cu.own := rfl
@[simp] theorem allEarly_cu_spacingDue (s : State) : (allEarly s).cu.spacingDue = s.cu.spacingDue := rfl

/-! ## setRecords -/

@[simp] theorem setRecords_pending (rs : List Rec) (s : State) : (setRecords rs s).pending = s.pending := rfl
@[simp] theorem setRecords_now (rs : List Rec) (s : State) : (setRecords rs s).now = s.now := rfl
@[simp] theorem setRecords_sj (rs : List Rec) (s : State) : (setRecords rs s).sj = s.sj := rfl
@[simp] theorem setRecords_tp (rs : List Rec) (s : State) : (setRecords rs s).tp = s.tp := rfl
@[simp] theorem setRecords_fs (rs : List Rec) (s : State) : (setRecords rs s).fs = s.fs := rfl
@[simp] theorem setRecords_cu (rs : List Rec) (s : State) : (setRecords rs s).cu = s.cu := rfl
@[simp] theorem setRecords_pt (rs : List Rec) (s : State) : (setRecords rs s).pt = s.pt := rfl
@[simp] theorem setRecords_su (rs : List Rec) (s : State) : (setRecords rs s).su = s.su := rfl
@[simp] theorem setRecords_li (rs : List Rec) (s : State) : (setRecords rs s).li = s.li := rfl
@[simp] theorem setRecords_ba (rs : List Rec) (s : State) : (setRecords rs s).ba = s.ba := rfl
@[simp] theorem setRecords_health (rs : List Rec) (s : State) : (setRecords rs s).health = s.health := rfl
@[simp] theorem setRecords_no (rs : List Rec) (s : State) : (setRecords rs s).no = s.no := rfl
@[simp] theorem setRecords_iu_records (rs : List Rec) (s : State) : (setRecords rs s).iu.records = rs := rfl
@[simp] theorem setRecords_iu_counter (rs : List Rec) (s : State) : (setRecords rs s).iu.counter = s.iu.counter := rfl
@[simp] theorem setRecords_iu_reannounce (rs : List Rec) (s : State) : (setRecords rs s).iu.reannounce = s.iu.reannounce := rfl
@[simp] theorem setRecords_iu_incidentSent (rs : List Rec) (s : State) : (setRecords rs s).iu.incidentSent = s.iu.incidentSent := rfl
@[simp] theorem setRecords_iu_endSent (rs : List Rec) (s : State) : (setRecords rs s).iu.endSent = s.iu.endSent := rfl
@[simp] theorem setRecords_iu_endRepeats (rs : List Rec) (s : State) : (setRecords rs s).iu.endRepeats = s.iu.endRepeats := rfl
@[simp] theorem setRecords_iu_heldAlarm (rs : List Rec) (s : State) : (setRecords rs s).iu.heldAlarm = s.iu.heldAlarm := rfl
@[simp] theorem setRecords_iu_endings (rs : List Rec) (s : State) : (setRecords rs s).iu.endings = s.iu.endings := rfl

/-! ## setReannounce -/

@[simp] theorem setReannounce_pending (l : List IdTime) (s : State) : (setReannounce l s).pending = s.pending := rfl
@[simp] theorem setReannounce_now (l : List IdTime) (s : State) : (setReannounce l s).now = s.now := rfl
@[simp] theorem setReannounce_sj (l : List IdTime) (s : State) : (setReannounce l s).sj = s.sj := rfl
@[simp] theorem setReannounce_tp (l : List IdTime) (s : State) : (setReannounce l s).tp = s.tp := rfl
@[simp] theorem setReannounce_fs (l : List IdTime) (s : State) : (setReannounce l s).fs = s.fs := rfl
@[simp] theorem setReannounce_cu (l : List IdTime) (s : State) : (setReannounce l s).cu = s.cu := rfl
@[simp] theorem setReannounce_pt (l : List IdTime) (s : State) : (setReannounce l s).pt = s.pt := rfl
@[simp] theorem setReannounce_su (l : List IdTime) (s : State) : (setReannounce l s).su = s.su := rfl
@[simp] theorem setReannounce_li (l : List IdTime) (s : State) : (setReannounce l s).li = s.li := rfl
@[simp] theorem setReannounce_ba (l : List IdTime) (s : State) : (setReannounce l s).ba = s.ba := rfl
@[simp] theorem setReannounce_health (l : List IdTime) (s : State) : (setReannounce l s).health = s.health := rfl
@[simp] theorem setReannounce_no (l : List IdTime) (s : State) : (setReannounce l s).no = s.no := rfl
@[simp] theorem setReannounce_iu_reannounce (l : List IdTime) (s : State) : (setReannounce l s).iu.reannounce = l := rfl
@[simp] theorem setReannounce_iu_records (l : List IdTime) (s : State) : (setReannounce l s).iu.records = s.iu.records := rfl
@[simp] theorem setReannounce_iu_counter (l : List IdTime) (s : State) : (setReannounce l s).iu.counter = s.iu.counter := rfl
@[simp] theorem setReannounce_iu_incidentSent (l : List IdTime) (s : State) : (setReannounce l s).iu.incidentSent = s.iu.incidentSent := rfl
@[simp] theorem setReannounce_iu_endSent (l : List IdTime) (s : State) : (setReannounce l s).iu.endSent = s.iu.endSent := rfl
@[simp] theorem setReannounce_iu_endRepeats (l : List IdTime) (s : State) : (setReannounce l s).iu.endRepeats = s.iu.endRepeats := rfl
@[simp] theorem setReannounce_iu_heldAlarm (l : List IdTime) (s : State) : (setReannounce l s).iu.heldAlarm = s.iu.heldAlarm := rfl
@[simp] theorem setReannounce_iu_endings (l : List IdTime) (s : State) : (setReannounce l s).iu.endings = s.iu.endings := rfl

/-! ## setPeer -/

@[simp] theorem setPeer_pending (p : Peer) (s : State) : (setPeer p s).pending = s.pending := rfl
@[simp] theorem setPeer_now (p : Peer) (s : State) : (setPeer p s).now = s.now := rfl
@[simp] theorem setPeer_sj (p : Peer) (s : State) : (setPeer p s).sj = s.sj := rfl
@[simp] theorem setPeer_iu (p : Peer) (s : State) : (setPeer p s).iu = s.iu := rfl
@[simp] theorem setPeer_tp (p : Peer) (s : State) : (setPeer p s).tp = s.tp := rfl
@[simp] theorem setPeer_fs (p : Peer) (s : State) : (setPeer p s).fs = s.fs := rfl
@[simp] theorem setPeer_cu (p : Peer) (s : State) : (setPeer p s).cu = s.cu := rfl
@[simp] theorem setPeer_su (p : Peer) (s : State) : (setPeer p s).su = s.su := rfl
@[simp] theorem setPeer_li (p : Peer) (s : State) : (setPeer p s).li = s.li := rfl
@[simp] theorem setPeer_ba (p : Peer) (s : State) : (setPeer p s).ba = s.ba := rfl
@[simp] theorem setPeer_health (p : Peer) (s : State) : (setPeer p s).health = s.health := rfl
@[simp] theorem setPeer_no (p : Peer) (s : State) : (setPeer p s).no = s.no := rfl
@[simp] theorem setPeer_pt (p : Peer) (s : State) : (setPeer p s).pt = putPeer p s.pt := rfl

/-! ## setSu -/

@[simp] theorem setSu_pending (u : Su) (s : State) : (setSu u s).pending = s.pending := rfl
@[simp] theorem setSu_now (u : Su) (s : State) : (setSu u s).now = s.now := rfl
@[simp] theorem setSu_sj (u : Su) (s : State) : (setSu u s).sj = s.sj := rfl
@[simp] theorem setSu_iu (u : Su) (s : State) : (setSu u s).iu = s.iu := rfl
@[simp] theorem setSu_tp (u : Su) (s : State) : (setSu u s).tp = s.tp := rfl
@[simp] theorem setSu_fs (u : Su) (s : State) : (setSu u s).fs = s.fs := rfl
@[simp] theorem setSu_cu (u : Su) (s : State) : (setSu u s).cu = s.cu := rfl
@[simp] theorem setSu_pt (u : Su) (s : State) : (setSu u s).pt = s.pt := rfl
@[simp] theorem setSu_li (u : Su) (s : State) : (setSu u s).li = s.li := rfl
@[simp] theorem setSu_ba (u : Su) (s : State) : (setSu u s).ba = s.ba := rfl
@[simp] theorem setSu_health (u : Su) (s : State) : (setSu u s).health = s.health := rfl
@[simp] theorem setSu_no (u : Su) (s : State) : (setSu u s).no = s.no := rfl
@[simp] theorem setSu_su (u : Su) (s : State) : (setSu u s).su = u := rfl

/-! ## raiseFlag -/

@[simp] theorem raiseFlag_pending (f : TimedFlag) (s : State) : (raiseFlag f s).pending = s.pending := rfl
@[simp] theorem raiseFlag_now (f : TimedFlag) (s : State) : (raiseFlag f s).now = s.now := rfl
@[simp] theorem raiseFlag_sj (f : TimedFlag) (s : State) : (raiseFlag f s).sj = s.sj := rfl
@[simp] theorem raiseFlag_iu (f : TimedFlag) (s : State) : (raiseFlag f s).iu = s.iu := rfl
@[simp] theorem raiseFlag_tp (f : TimedFlag) (s : State) : (raiseFlag f s).tp = s.tp := rfl
@[simp] theorem raiseFlag_fs (f : TimedFlag) (s : State) : (raiseFlag f s).fs = s.fs := rfl
@[simp] theorem raiseFlag_cu (f : TimedFlag) (s : State) : (raiseFlag f s).cu = s.cu := rfl
@[simp] theorem raiseFlag_pt (f : TimedFlag) (s : State) : (raiseFlag f s).pt = s.pt := rfl
@[simp] theorem raiseFlag_su (f : TimedFlag) (s : State) : (raiseFlag f s).su = s.su := rfl
@[simp] theorem raiseFlag_li (f : TimedFlag) (s : State) : (raiseFlag f s).li = s.li := rfl
@[simp] theorem raiseFlag_ba (f : TimedFlag) (s : State) : (raiseFlag f s).ba = s.ba := rfl
@[simp] theorem raiseFlag_no (f : TimedFlag) (s : State) : (raiseFlag f s).no = s.no := rfl
@[simp] theorem raiseFlag_health (f : TimedFlag) (s : State) : (raiseFlag f s).health = s.health.set f (some (s.now + healthTime)) := rfl

/-! ## lightAccept -/

@[simp] theorem lightAccept_pending (s : State) : (lightAccept s).pending = s.pending := rfl
@[simp] theorem lightAccept_now (s : State) : (lightAccept s).now = s.now := rfl
@[simp] theorem lightAccept_sj (s : State) : (lightAccept s).sj = s.sj := rfl
@[simp] theorem lightAccept_iu (s : State) : (lightAccept s).iu = s.iu := rfl
@[simp] theorem lightAccept_tp (s : State) : (lightAccept s).tp = s.tp := rfl
@[simp] theorem lightAccept_fs (s : State) : (lightAccept s).fs = s.fs := rfl
@[simp] theorem lightAccept_cu (s : State) : (lightAccept s).cu = s.cu := rfl
@[simp] theorem lightAccept_pt (s : State) : (lightAccept s).pt = s.pt := rfl
@[simp] theorem lightAccept_su (s : State) : (lightAccept s).su = s.su := rfl
@[simp] theorem lightAccept_li (s : State) : (lightAccept s).li = s.li := rfl
@[simp] theorem lightAccept_ba (s : State) : (lightAccept s).ba = s.ba := rfl
@[simp] theorem lightAccept_health (s : State) : (lightAccept s).health = s.health := rfl
@[simp] theorem lightAccept_no_acceptDue (s : State) : (lightAccept s).no.acceptDue = some (s.now + lampTime) := rfl
@[simp] theorem lightAccept_no_refusedDue (s : State) : (lightAccept s).no.refusedDue = none := rfl
@[simp] theorem lightAccept_no_conflict (s : State) : (lightAccept s).no.conflict = s.no.conflict := rfl
@[simp] theorem lightAccept_no_flash (s : State) : (lightAccept s).no.flash = s.no.flash := rfl

/-! ## lightRefused -/

@[simp] theorem lightRefused_pending (s : State) : (lightRefused s).pending = s.pending := rfl
@[simp] theorem lightRefused_now (s : State) : (lightRefused s).now = s.now := rfl
@[simp] theorem lightRefused_sj (s : State) : (lightRefused s).sj = s.sj := rfl
@[simp] theorem lightRefused_iu (s : State) : (lightRefused s).iu = s.iu := rfl
@[simp] theorem lightRefused_tp (s : State) : (lightRefused s).tp = s.tp := rfl
@[simp] theorem lightRefused_fs (s : State) : (lightRefused s).fs = s.fs := rfl
@[simp] theorem lightRefused_cu (s : State) : (lightRefused s).cu = s.cu := rfl
@[simp] theorem lightRefused_pt (s : State) : (lightRefused s).pt = s.pt := rfl
@[simp] theorem lightRefused_su (s : State) : (lightRefused s).su = s.su := rfl
@[simp] theorem lightRefused_li (s : State) : (lightRefused s).li = s.li := rfl
@[simp] theorem lightRefused_ba (s : State) : (lightRefused s).ba = s.ba := rfl
@[simp] theorem lightRefused_health (s : State) : (lightRefused s).health = s.health := rfl
@[simp] theorem lightRefused_no_refusedDue (s : State) : (lightRefused s).no.refusedDue = some (s.now + lampTime) := rfl
@[simp] theorem lightRefused_no_acceptDue (s : State) : (lightRefused s).no.acceptDue = none := rfl
@[simp] theorem lightRefused_no_conflict (s : State) : (lightRefused s).no.conflict = s.no.conflict := rfl
@[simp] theorem lightRefused_no_flash (s : State) : (lightRefused s).no.flash = s.no.flash := rfl

/-! ## enterConflict -/

@[simp] theorem enterConflict_pending (s : State) : (enterConflict s).pending = s.pending := rfl
@[simp] theorem enterConflict_now (s : State) : (enterConflict s).now = s.now := rfl
@[simp] theorem enterConflict_sj (s : State) : (enterConflict s).sj = s.sj := rfl
@[simp] theorem enterConflict_iu (s : State) : (enterConflict s).iu = s.iu := rfl
@[simp] theorem enterConflict_tp (s : State) : (enterConflict s).tp = s.tp := rfl
@[simp] theorem enterConflict_fs (s : State) : (enterConflict s).fs = s.fs := rfl
@[simp] theorem enterConflict_cu (s : State) : (enterConflict s).cu = s.cu := rfl
@[simp] theorem enterConflict_pt (s : State) : (enterConflict s).pt = s.pt := rfl
@[simp] theorem enterConflict_su (s : State) : (enterConflict s).su = s.su := rfl
@[simp] theorem enterConflict_li (s : State) : (enterConflict s).li = s.li := rfl
@[simp] theorem enterConflict_ba (s : State) : (enterConflict s).ba = s.ba := rfl
@[simp] theorem enterConflict_no_conflict (s : State) :
    (enterConflict s).no.conflict = ⟨true, some (s.now + lampTime)⟩ := rfl
@[simp] theorem enterConflict_no_commanded (s : State) : (enterConflict s).no.commanded = s.no.commanded := rfl
@[simp] theorem enterConflict_no_acceptDue (s : State) : (enterConflict s).no.acceptDue = s.no.acceptDue := rfl
@[simp] theorem enterConflict_no_refusedDue (s : State) : (enterConflict s).no.refusedDue = s.no.refusedDue := rfl
@[simp] theorem enterConflict_no_flash (s : State) : (enterConflict s).no.flash = s.no.flash := rfl

/-! ## noteCommand -/

@[simp] theorem noteCommand_pending (s : State) : (noteCommand s).pending = s.pending := rfl
@[simp] theorem noteCommand_now (s : State) : (noteCommand s).now = s.now := rfl
@[simp] theorem noteCommand_sj (s : State) : (noteCommand s).sj = s.sj := rfl
@[simp] theorem noteCommand_iu (s : State) : (noteCommand s).iu = s.iu := rfl
@[simp] theorem noteCommand_tp (s : State) : (noteCommand s).tp = s.tp := rfl
@[simp] theorem noteCommand_fs (s : State) : (noteCommand s).fs = s.fs := rfl
@[simp] theorem noteCommand_cu (s : State) : (noteCommand s).cu = s.cu := rfl
@[simp] theorem noteCommand_pt (s : State) : (noteCommand s).pt = s.pt := rfl
@[simp] theorem noteCommand_su (s : State) : (noteCommand s).su = s.su := rfl
@[simp] theorem noteCommand_li (s : State) : (noteCommand s).li = s.li := rfl
@[simp] theorem noteCommand_ba (s : State) : (noteCommand s).ba = s.ba := rfl
@[simp] theorem noteCommand_health (s : State) : (noteCommand s).health = s.health := rfl
@[simp] theorem noteCommand_no_commanded (s : State) : (noteCommand s).no.commanded = true := rfl
@[simp] theorem noteCommand_no_acceptDue (s : State) : (noteCommand s).no.acceptDue = s.no.acceptDue := rfl
@[simp] theorem noteCommand_no_refusedDue (s : State) : (noteCommand s).no.refusedDue = s.no.refusedDue := rfl
@[simp] theorem noteCommand_no_conflict (s : State) : (noteCommand s).no.conflict = s.no.conflict := rfl
@[simp] theorem noteCommand_no_flash (s : State) : (noteCommand s).no.flash = s.no.flash := rfl

/-! ## holdEarly -/

@[simp] theorem holdEarly_pending (s : State) : (holdEarly s).pending = s.pending := rfl
@[simp] theorem holdEarly_now (s : State) : (holdEarly s).now = s.now := rfl
@[simp] theorem holdEarly_sj (s : State) : (holdEarly s).sj = s.sj := rfl
@[simp] theorem holdEarly_iu (s : State) : (holdEarly s).iu = s.iu := rfl
@[simp] theorem holdEarly_tp (s : State) : (holdEarly s).tp = s.tp := rfl
@[simp] theorem holdEarly_fs (s : State) : (holdEarly s).fs = s.fs := rfl
@[simp] theorem holdEarly_cu (s : State) : (holdEarly s).cu = s.cu := rfl
@[simp] theorem holdEarly_pt (s : State) : (holdEarly s).pt = s.pt := rfl
@[simp] theorem holdEarly_su (s : State) : (holdEarly s).su = s.su := rfl
@[simp] theorem holdEarly_li (s : State) : (holdEarly s).li = s.li := rfl
@[simp] theorem holdEarly_health (s : State) : (holdEarly s).health = s.health := rfl
@[simp] theorem holdEarly_no (s : State) : (holdEarly s).no = s.no := rfl
@[simp] theorem holdEarly_ba_early (s : State) : (holdEarly s).ba.early = true := rfl
@[simp] theorem holdEarly_ba_presenceDue (s : State) : (holdEarly s).ba.presenceDue = s.ba.presenceDue := rfl
@[simp] theorem holdEarly_ba_spacingDue (s : State) : (holdEarly s).ba.spacingDue = s.ba.spacingDue := rfl

/-! ## pendMaintenance -/

@[simp] theorem pendMaintenance_pending (s : State) : (pendMaintenance s).pending = s.pending := rfl
@[simp] theorem pendMaintenance_now (s : State) : (pendMaintenance s).now = s.now := rfl
@[simp] theorem pendMaintenance_sj (s : State) : (pendMaintenance s).sj = s.sj := rfl
@[simp] theorem pendMaintenance_iu (s : State) : (pendMaintenance s).iu = s.iu := rfl
@[simp] theorem pendMaintenance_tp (s : State) : (pendMaintenance s).tp = s.tp := rfl
@[simp] theorem pendMaintenance_cu (s : State) : (pendMaintenance s).cu = s.cu := rfl
@[simp] theorem pendMaintenance_pt (s : State) : (pendMaintenance s).pt = s.pt := rfl
@[simp] theorem pendMaintenance_su (s : State) : (pendMaintenance s).su = s.su := rfl
@[simp] theorem pendMaintenance_li (s : State) : (pendMaintenance s).li = s.li := rfl
@[simp] theorem pendMaintenance_ba (s : State) : (pendMaintenance s).ba = s.ba := rfl
@[simp] theorem pendMaintenance_health (s : State) : (pendMaintenance s).health = s.health := rfl
@[simp] theorem pendMaintenance_no (s : State) : (pendMaintenance s).no = s.no := rfl
@[simp] theorem pendMaintenance_fs_slots (s : State) : (pendMaintenance s).fs.slots = s.fs.slots := rfl
@[simp] theorem pendMaintenance_fs_maintPending (s : State) : (pendMaintenance s).fs.maintPending = true := rfl
@[simp] theorem pendMaintenance_fs_initDue (s : State) : (pendMaintenance s).fs.initDue = s.fs.initDue := rfl

/-! ## clockTick -/

@[simp] theorem clockTick_pending (s : State) : (clockTick s).pending = s.pending := rfl
@[simp] theorem clockTick_sj (s : State) : (clockTick s).sj = s.sj := rfl
@[simp] theorem clockTick_iu (s : State) : (clockTick s).iu = s.iu := rfl
@[simp] theorem clockTick_tp (s : State) : (clockTick s).tp = s.tp := rfl
@[simp] theorem clockTick_fs (s : State) : (clockTick s).fs = s.fs := rfl
@[simp] theorem clockTick_cu (s : State) : (clockTick s).cu = s.cu := rfl
@[simp] theorem clockTick_pt (s : State) : (clockTick s).pt = s.pt := rfl
@[simp] theorem clockTick_su (s : State) : (clockTick s).su = s.su := rfl
@[simp] theorem clockTick_li (s : State) : (clockTick s).li = s.li := rfl
@[simp] theorem clockTick_ba (s : State) : (clockTick s).ba = s.ba := rfl
@[simp] theorem clockTick_health (s : State) : (clockTick s).health = s.health := rfl
@[simp] theorem clockTick_no (s : State) : (clockTick s).no = s.no := rfl
@[simp] theorem clockTick_now (s : State) : (clockTick s).now = s.now + 1 := rfl

end Sys2Proof.Machine
end

