-- ==== Sys2Proof/Laws/Slots.lean ====
section
/-! SUPPORT. What the slot operations can do (chapter 3): quads by slot number, a handed target, and the
states an operation leaves as they are. -/

namespace Sys2Proof.Machine

/-! ## Four of a kind -/

@[simp] theorem Quad.get_all {α : Type} (a : α) (k : SlotNo) : (Quad.all a).get k = a := by
  cases k <;> rfl

@[simp] theorem Quad.get_map {α β : Type} (f : α → β) (q : Quad α) (k : SlotNo) :
    (q.map f).get k = f (q.get k) := by cases k <;> rfl

@[simp] theorem Quad.get_mapNo {α β : Type} (f : SlotNo → α → β) (q : Quad α) (k : SlotNo) :
    (q.mapNo f).get k = f k (q.get k) := by cases k <;> rfl

@[simp] theorem Quad.get_set_same {α : Type} (q : Quad α) (k : SlotNo) (a : α) :
    (q.set k a).get k = a := by cases k <;> rfl

theorem Quad.get_set_ne {α : Type} (q : Quad α) {k j : SlotNo} (a : α) (h : j ≠ k) :
    (q.set k a).get j = q.get j := by
  cases k <;> cases j <;> first | rfl | exact absurd rfl h

/-- Two quads with the same four are the same. -/
theorem Quad.ext_get {α : Type} {p q : Quad α} (h : ∀ k, p.get k = q.get k) : p = q := by
  cases p; cases q
  have h1 := h .fs1; have h2 := h .fs2; have h3 := h .fs3; have h4 := h .fs4
  simp only [Quad.get] at h1 h2 h3 h4
  subst h1; subst h2; subst h3; subst h4; rfl

/-- A quad that sets what it holds is unchanged. -/
@[simp] theorem Quad.set_get {α : Type} (q : Quad α) (k : SlotNo) : q.set k (q.get k) = q := by
  cases k <;> rfl

theorem Quad.any_eq_false {α : Type} (p : α → Bool) (q : Quad α) :
    q.any p = false ↔ ∀ k, p (q.get k) = false := by
  constructor
  · intro h k
    simp only [Quad.any, Bool.or_eq_false_iff] at h
    cases k <;> simp [Quad.get, h]
  · intro h
    simp only [Quad.any, Bool.or_eq_false_iff]
    exact ⟨⟨⟨h .fs1, h .fs2⟩, h .fs3⟩, h .fs4⟩

theorem Quad.any_eq_true {α : Type} (p : α → Bool) (q : Quad α) :
    q.any p = true ↔ ∃ k, p (q.get k) = true := by
  constructor
  · intro h
    simp only [Quad.any, Bool.or_eq_true] at h
    rcases h with ((h | h) | h) | h
    exacts [⟨.fs1, h⟩, ⟨.fs2, h⟩, ⟨.fs3, h⟩, ⟨.fs4, h⟩]
  · rintro ⟨k, h⟩
    simp only [Quad.any, Bool.or_eq_true]
    cases k <;> simp only [Quad.get] at h <;> simp [h]

theorem setSlot_slot_same (k : SlotNo) (sl : Slot) (s : State) : (setSlot k sl s).slot k = sl := by
  simp [State.slot]

theorem setSlot_slot_ne {k j : SlotNo} (sl : Slot) (s : State) (h : j ≠ k) :
    (setSlot k sl s).slot j = s.slot j := by
  simp [State.slot, Quad.get_set_ne _ _ h]

/-! ## A handed target (R64) -/

/-- What a handed target leaves of a slot: its fault count, kept lockout and pins. -/
theorem handTarget_rest (x : SlotCtx) (t : Target) (sl : Slot) :
    (handTarget x t sl).faults = sl.faults ∧ (handTarget x t sl).kept = sl.kept ∧
      (handTarget x t sl).runFb = sl.runFb ∧ (handTarget x t sl).tripFb = sl.tripFb ∧
      (handTarget x t sl).dirFb = sl.dirFb := by
  unfold handTarget; split <;> simp

/-- The state a handed target leaves: that of `stateOnTarget`, an ABSENT slot's own. -/
theorem handTarget_st (x : SlotCtx) (t : Target) (sl : Slot) :
    (handTarget x t sl).st = stateOnTarget x t sl.st := by
  unfold handTarget; split <;> simp_all [stateOnTarget]

/-- A fitted slot holds the target it is handed (R62, R64). -/
theorem handTarget_target (x : SlotCtx) (t : Target) (sl : Slot) (h : sl.st ≠ .absent) :
    (handTarget x t sl).target = t := by
  unfold handTarget; split <;> simp_all

/-- Which states a handed target may leave a slot in (R64). -/
theorem stateOnTarget_cases (x : SlotCtx) (t : Target) (st : SlotState) :
    stateOnTarget x t st = st ∨
      ((st = .stopped ∨ isStartWait st = true) ∧
        (stateOnTarget x t st = .stopped ∨ isStartWait (stateOnTarget x t st) = true)) ∨
      (∃ d, st = .running d ∧ stateOnTarget x t st = coastFrom x) := by
  cases st with
  | stopped =>
    right; left
    refine ⟨.inl rfl, ?_⟩
    cases t with
    | off => exact .inl rfl
    | run d => by_cases h : x.maintPending = true <;> simp [stateOnTarget, stoppedWith, h, isStartWait]
  | startWait d => right; left; cases t <;> simp [stateOnTarget, isStartWait]
  | running d =>
    cases t with
    | off => right; right; exact ⟨d, rfl, rfl⟩
    | run y => by_cases h : y = d <;> simp [stateOnTarget, runningWith, h]
  | _ => exact .inl rfl

/-- A handed target never gives a drive: the drive stands or is released (R60, R64). -/
theorem stateOnTarget_drive (x : SlotCtx) (t : Target) (st : SlotState) :
    driveOf (stateOnTarget x t st) = driveOf st ∨ driveOf (stateOnTarget x t st) = none := by
  rcases stateOnTarget_cases x t st with h | ⟨-, h | h⟩ | ⟨d, -, h⟩
  · exact .inl (by rw [h])
  · exact .inr (by rw [h]; rfl)
  · right; revert h; cases stateOnTarget x t st <;> simp [isStartWait, driveOf]
  · exact .inr (by rw [h]; rfl)

/-- A handed target starts no slot and ends no start (R64, R67). -/
theorem stateOnTarget_starting (x : SlotCtx) (t : Target) (st : SlotState) :
    isStarting (stateOnTarget x t st) = isStarting st := by
  rcases stateOnTarget_cases x t st with h | ⟨h1, h⟩ | ⟨d, h1, h⟩
  · rw [h]
  · have : isStarting st = false := by
      rcases h1 with rfl | h1
      · rfl
      · revert h1; cases st <;> simp [isStartWait, isStarting]
    rw [this]
    rcases h with h | h
    · rw [h]; rfl
    · revert h; cases stateOnTarget x t st <;> simp [isStartWait, isStarting]
  · rw [h, h1]; rfl

/-- A handed target neither takes a slot out of the usable states nor into them (R54, R64). -/
theorem stateOnTarget_usable (x : SlotCtx) (t : Target) (st : SlotState) :
    isUsable (stateOnTarget x t st) = isUsable st := by
  rcases stateOnTarget_cases x t st with h | ⟨h1, h⟩ | ⟨d, h1, h⟩
  · rw [h]
  · have : isUsable st = true := by
      rcases h1 with rfl | h1
      · rfl
      · revert h1; cases st <;> simp [isStartWait, isUsable]
    rw [this]
    rcases h with h | h
    · rw [h]; rfl
    · revert h; cases stateOnTarget x t st <;> simp [isStartWait, isUsable]
  · rw [h, h1]; rfl

/-- A LOCKED_OUT slot stays so whatever target it is handed (R64, R81). -/
@[simp] theorem stateOnTarget_lockedOut (x : SlotCtx) (t : Target) (c : LockCause) :
    stateOnTarget x t (.lockedOut c) = .lockedOut c := rfl

@[simp] theorem stateOnTarget_tripped (x : SlotCtx) (t : Target) (h : Option Time) :
    stateOnTarget x t (.tripped h) = .tripped h := rfl

@[simp] theorem stateOnTarget_coasting (x : SlotCtx) (t : Target) (h : Time) :
    stateOnTarget x t (.coasting h) = .coasting h := rfl

@[simp] theorem stateOnTarget_local (x : SlotCtx) (t : Target) :
    stateOnTarget x t .localControl = .localControl := rfl

@[simp] theorem stateOnTarget_absent (x : SlotCtx) (t : Target) :
    stateOnTarget x t .absent = .absent := rfl

end Sys2Proof.Machine
end

