-- ==== Sys2Proof/Laws/Line.lean ====
section
/-! SUPPORT. What placing a frame can do (R152, R153), and what the operations built on it leave. -/

namespace Sys2Proof.Machine

/-- What placing frames, and the reports it makes to the Claim Unit, leave as it was. -/
structure LineRest (s t : State) : Prop where
  pending : t.pending = s.pending
  now : t.now = s.now
  sj : t.sj = s.sj
  iu : t.iu = s.iu
  tp : t.tp = s.tp
  fs : t.fs = s.fs
  pt : t.pt = s.pt
  su : t.su = s.su
  ba : t.ba = s.ba
  no : t.no = s.no
  heard : t.cu.view.map heardOf = s.cu.view.map heardOf
  sending : t.li.sending = s.li.sending
  rx : t.li.rx = s.li.rx
  synced : t.li.synced = s.li.synced
  assembly : t.li.assembly = s.li.assembly
  idle : t.li.idleSince = s.li.idleSince
  txLen : s.li.tx.length ≤ 10 → t.li.tx.length ≤ 10
  health : ∀ f, f ≠ .txCongested → t.health.get f = s.health.get f

theorem LineRest.refl (s : State) : LineRest s s := by constructor <;> simp

theorem LineRest.trans {s t u : State} (h : LineRest s t) (g : LineRest t u) : LineRest s u where
  pending := g.pending.trans h.pending
  now := g.now.trans h.now
  sj := g.sj.trans h.sj
  iu := g.iu.trans h.iu
  tp := g.tp.trans h.tp
  fs := g.fs.trans h.fs
  pt := g.pt.trans h.pt
  su := g.su.trans h.su
  ba := g.ba.trans h.ba
  no := g.no.trans h.no
  heard := g.heard.trans h.heard
  sending := g.sending.trans h.sending
  rx := g.rx.trans h.rx
  synced := g.synced.trans h.synced
  assembly := g.assembly.trans h.assembly
  idle := g.idle.trans h.idle
  txLen := fun x => g.txLen (h.txLen x)
  health := fun f hf => (g.health f hf).trans (h.health f hf)

@[simp] theorem Health.get_set_same (h : Health) (f : TimedFlag) (t : Option Time) :
    (h.set f t).get f = t := by cases f <;> rfl

theorem Health.get_set_ne (h : Health) {f g : TimedFlag} (t : Option Time) (hg : g ≠ f) :
    (h.set f t).get g = h.get g := by
  cases f <;> cases g <;> first | rfl | exact absurd rfl hg

theorem allEarly_heard (v : List ClaimEntry) :
    (v.map fun e => { e with late := false }).map heardOf = v.map heardOf := by
  simp [List.map_map, Function.comp_def, heardOf]

theorem lineRest_setOwn (o : OwnClaim) (s : State) : LineRest s (setOwn o s) := by
  constructor <;> simp

theorem lineRest_allEarly (s : State) : LineRest s (allEarly s) := by
  constructor <;> simp [heardOf, Function.comp_def]

theorem lineRest_claimNotSent (b : Body) (s : State) : LineRest s (claimNotSent b s) := by
  unfold claimNotSent
  split
  · split
    · exact (lineRest_allEarly s).trans (lineRest_setOwn _ _)
    · exact .refl s
  · exact .refl s

theorem lineRest_raiseCongested (s : State) : LineRest s (raiseFlag .txCongested s) := by
  constructor <;> simp
  intro f hf
  exact Health.get_set_ne _ _ hf

theorem lineRest_refuseFrame (b : Body) (s : State) : LineRest s (refuseFrame b s) :=
  (lineRest_raiseCongested s).trans (lineRest_claimNotSent b _)

/-- A queue of no more than 10 frames in place of the one held. -/
theorem lineRest_setTx (q : List TxFrame) (s : State) (h : s.li.tx.length ≤ 10 → q.length ≤ 10) :
    LineRest s (setTx q s) := by
  constructor <;> simp
  exact h

/-! ## The queue -/

theorem insertTail_length (f : TxFrame) (q : List TxFrame) :
    (insertTail f q).length = q.length + 1 := by
  induction q with
  | nil => rfl
  | cons g gs ih => unfold insertTail; split <;> simp_all

theorem insertHead_length (f : TxFrame) (q : List TxFrame) :
    (insertHead f q).length = q.length + 1 := by
  induction q with
  | nil => rfl
  | cons g gs ih => unfold insertHead; split <;> simp_all

theorem removeFirst_length (p : TxFrame → Bool) (q : List TxFrame) :
    (removeFirst p q).length ≤ q.length := by
  induction q with
  | nil => simp [removeFirst]
  | cons g gs ih => unfold removeFirst; split <;> simp_all

theorem replaceIn_length (b : Body) (q r : List TxFrame) (h : replaceIn b q = some r) :
    r.length = q.length := by
  induction q generalizing r with
  | nil => simp [replaceIn] at h
  | cons g gs ih =>
    unfold replaceIn at h
    split at h
    · simp only [Option.some.injEq] at h; simp [← h]
    · cases hr : replaceIn b gs with
      | none => simp [hr] at h
      | some r' => simp only [hr, Option.map_some, Option.some.injEq] at h; simp [← h, ih r' hr]

theorem supersededIn_length (b : Body) (n : Nat) (q r : List TxFrame)
    (h : supersededIn b n q = some r) : r.length = q.length := by
  induction q generalizing r with
  | nil => simp [supersededIn] at h
  | cons g gs ih =>
    unfold supersededIn at h
    split at h
    · simp only [Option.some.injEq] at h; simp [← h]
    · cases hr : supersededIn b n gs with
      | none => simp [hr] at h
      | some r' => simp only [hr, Option.map_some, Option.some.injEq] at h; simp [← h, ih r' hr]

/-- A frame joins the tail of its class in a queue with room, and nothing else happens (R152). -/
theorem joinTail_room (b : Body) (s : State) (h : s.li.tx.length < 10) :
    joinTail b s = setTx (insertTail ⟨b, 0⟩ s.li.tx) s := by
  have : ¬ maxTx ≤ s.li.tx.length := by simp [maxTx]; omega
  simp [joinTail, this]

theorem lineRest_joinTail (b : Body) (s : State) : LineRest s (joinTail b s) := by
  unfold joinTail
  split
  · exact lineRest_refuseFrame b s
  · rename_i h
    exact lineRest_setTx _ _ (by simp [insertTail_length, maxTx] at *; omega)

/-- What placing a frame leaves as it was (R153). -/
theorem lineRest_place (b : Body) (s : State) : LineRest s (place b s) := by
  have hr (b : Body) : LineRest s (match replaceIn b s.li.tx with
      | some q => setTx q s
      | none => joinTail b s) := by
    split
    · rename_i q hq
      exact lineRest_setTx _ _ (by rw [replaceIn_length _ _ _ hq]; exact id)
    · exact lineRest_joinTail _ s
  unfold place
  split
  · exact .refl s
  · split
    · split
      · exact lineRest_setTx _ _ (fun h => (removeFirst_length _ _).trans h)
      · exact lineRest_joinTail _ s
    all_goals exact hr _

/-- In CONFIG_FAULT a placed frame is discarded (R158). -/
theorem place_configFault (b : Body) (s : State) (h : s.sj.mode = .configFault) : place b s = s := by
  simp [place, h]

theorem refuseFrame_cu (b : Body) (s : State) :
    (refuseFrame b s).cu.counter = s.cu.counter ∧
      (refuseFrame b s).cu.spacingDue = s.cu.spacingDue ∧
      ((refuseFrame b s).cu.own = s.cu.own ∨
        ((refuseFrame b s).cu.own = .none ∧ ∃ n, claimNumber b = some n)) := by
  unfold refuseFrame claimNotSent
  split
  · split <;> simp_all
  · simp

theorem joinTail_cu (b : Body) (s : State) :
    (joinTail b s).cu.counter = s.cu.counter ∧
      (joinTail b s).cu.spacingDue = s.cu.spacingDue ∧
      ((joinTail b s).cu.own = s.cu.own ∨
        ((joinTail b s).cu.own = .none ∧ ∃ n, claimNumber b = some n)) := by
  unfold joinTail
  split
  · exact refuseFrame_cu b s
  · simp

/-- Placing a frame leaves the own claim, but for a CLAIM that is not taken (R91, R152). -/
theorem place_cu (b : Body) (s : State) :
    (place b s).cu.counter = s.cu.counter ∧ (place b s).cu.spacingDue = s.cu.spacingDue ∧
      ((place b s).cu.own = s.cu.own ∨
        ((place b s).cu.own = .none ∧ ∃ n, claimNumber b = some n)) := by
  have hr (b : Body) (t : State) (ht : t = match replaceIn b s.li.tx with
      | some q => setTx q s
      | none => joinTail b s) : t.cu.counter = s.cu.counter ∧ t.cu.spacingDue = s.cu.spacingDue ∧
      (t.cu.own = s.cu.own ∨ (t.cu.own = .none ∧ ∃ n, claimNumber b = some n)) := by
    subst ht
    split
    · simp
    · exact joinTail_cu b s
  unfold place
  split
  · simp
  · split
    · split
      · simp
      · exact joinTail_cu _ s
    all_goals exact hr _ _ rfl

@[simp] theorem place_counter (b : Body) (s : State) :
    (place b s).cu.counter = s.cu.counter := (place_cu b s).1

@[simp] theorem place_spacing (b : Body) (s : State) :
    (place b s).cu.spacingDue = s.cu.spacingDue := (place_cu b s).2.1

/-- Placing anything but a CLAIM leaves the own claim. -/
theorem place_own (b : Body) (s : State) (h : claimNumber b = none) :
    (place b s).cu.own = s.cu.own := by
  rcases (place_cu b s).2.2 with g | ⟨-, n, hn⟩
  · exact g
  · simp [h] at hn

/-! The parts of a state a placed frame leaves, for the simplifier. -/

@[simp] theorem place_pending (b : Body) (s : State) : (place b s).pending = s.pending :=
  (lineRest_place b s).pending
@[simp] theorem place_now (b : Body) (s : State) : (place b s).now = s.now := (lineRest_place b s).now
@[simp] theorem place_sj (b : Body) (s : State) : (place b s).sj = s.sj := (lineRest_place b s).sj
@[simp] theorem place_iu (b : Body) (s : State) : (place b s).iu = s.iu := (lineRest_place b s).iu
@[simp] theorem place_tp (b : Body) (s : State) : (place b s).tp = s.tp := (lineRest_place b s).tp
@[simp] theorem place_fs (b : Body) (s : State) : (place b s).fs = s.fs := (lineRest_place b s).fs
@[simp] theorem place_pt (b : Body) (s : State) : (place b s).pt = s.pt := (lineRest_place b s).pt
@[simp] theorem place_su (b : Body) (s : State) : (place b s).su = s.su := (lineRest_place b s).su
@[simp] theorem place_ba (b : Body) (s : State) : (place b s).ba = s.ba := (lineRest_place b s).ba
@[simp] theorem place_no (b : Body) (s : State) : (place b s).no = s.no := (lineRest_place b s).no
@[simp] theorem place_rx (b : Body) (s : State) : (place b s).li.rx = s.li.rx :=
  (lineRest_place b s).rx
@[simp] theorem place_sending (b : Body) (s : State) : (place b s).li.sending = s.li.sending :=
  (lineRest_place b s).sending

/-! ## What an observer of the records, slots and straps sees after a frame is placed -/

theorem slot_of_fs {s t : State} (h : t.fs = s.fs) (k : SlotNo) : t.slot k = s.slot k := by
  simp [State.slot, h]

end Sys2Proof.Machine
end

