-- ==== Sys2Proof/Laws/Closing.lean ====
section
/-! SUPPORT. What follows an event at the same event (Machine/Closing.lean): said once what it can do to
each part of the state, and that it does nothing where nothing was left to follow. -/

namespace Sys2Proof.Machine

/-! ## What closing an event leaves -/

theorem SlotCloses.refl (now : Time) (a : Slot) : SlotCloses now a a := by
  constructor
  case resting => exact fun h => h.imp id .inl
  all_goals simp +contextual

theorem SlotCloses.trans {now : Time} {a b c : Slot} (h : SlotCloses now a b)
    (g : SlotCloses now b c) : SlotCloses now a c where
  faults := g.faults.trans h.faults
  kept := g.kept.trans h.kept
  runFb := g.runFb.trans h.runFb
  tripFb := g.tripFb.trans h.tripFb
  dirFb := g.dirFb.trans h.dirFb
  drive := by
    rcases g.drive with g' | g'
    · rw [g']; exact h.drive
    · exact .inr g'
  starting := fun x => by
    have e := h.starting x
    rw [g.starting (by rw [e]; exact x), e]
  started := fun x => by
    have e := g.started x
    rw [e, h.started (by rw [← e]; exact x)]
  running := fun d hd => by
    rcases h.running d hd with h' | h' | h'
    · exact g.running d h'
    · exact .inr (.inl (g.coasting _ h'))
    · exact .inr (.inr (g.isLocal h'))
  resting := fun hd => by
    rcases h.resting hd with h' | h' | h'
    · exact g.resting (.inl h')
    · exact g.resting (.inr h')
    · exact .inr (.inr (g.isLocal h'))
  coasting := fun d hd => g.coasting d (h.coasting d hd)
  locked := fun x => (g.locked x).trans (h.locked x)
  tripped := fun x hx => by
    rcases h.tripped x hx with h' | h'
    · exact g.tripped x h'
    · exact .inr (g.isLocal h')
  isLocal := fun x => g.isLocal (h.isLocal x)
  absent := g.absent.trans h.absent

/-- A STARTING slot keeps its state whatever target it is handed (R64). -/
theorem stateOnTarget_of_starting (x : SlotCtx) (t : Target) (st : SlotState)
    (h : isStarting st = true) : stateOnTarget x t st = st := by
  cases st <;> simp [isStarting] at h
  rfl

/-- A handed target (R64). -/
theorem slotCloses_handTarget (x : SlotCtx) (t : Target) (a : Slot) :
    SlotCloses x.now a (handTarget x t a) := by
  obtain ⟨h1, h2, h3, h4, h5⟩ := handTarget_rest x t a
  have hst := handTarget_st x t a
  refine ⟨h1, h2, h3, h4, h5, ?_, ?_, ?_, ?_, ?_, ?_, ?_, ?_, ?_, ?_⟩
  · rw [hst]; exact stateOnTarget_drive x t a.st
  · intro h; rw [hst]; exact stateOnTarget_of_starting x t _ h
  · intro h
    rw [hst] at h ⊢
    rw [stateOnTarget_starting] at h
    exact stateOnTarget_of_starting x t _ h
  · intro d hd
    rw [hst]
    rcases stateOnTarget_cases x t a.st with h | ⟨h1, -⟩ | ⟨e, h1, h⟩
    · rw [h]; exact .inl hd
    · rcases h1 with h1 | h1 <;> simp [hd, isStartWait] at h1
    · rw [h]; exact .inr (.inl rfl)
  · intro hd
    rw [hst]
    rcases stateOnTarget_cases x t a.st with h | ⟨-, h⟩ | ⟨e, h1, -⟩
    · rw [h]; exact hd.imp id .inl
    · exact h.imp id .inl
    · rcases hd with hd | hd <;> simp [h1, isStartWait] at hd
  · intro d hd; rw [hst, hd]; rfl
  · intro c
    rw [hst]
    rcases stateOnTarget_cases x t a.st with h | ⟨h1, h⟩ | ⟨d, h1, h⟩
    · rw [h]
    · constructor
      · intro e; rw [e] at h; simp [isStartWait] at h
      · intro e; rw [e] at h1; simp [isStartWait] at h1
    · rw [h, h1]; simp [coastFrom]
  · intro d hd; rw [hst, hd]; exact .inl rfl
  · intro hd; rw [hst, hd]; rfl
  · rw [hst]
    rcases stateOnTarget_cases x t a.st with h | ⟨h1, h⟩ | ⟨d, h1, h⟩
    · rw [h]
    · constructor
      · intro e; rw [e] at h; simp [isStartWait] at h
      · intro e; rw [e] at h1; simp [isStartWait] at h1
    · rw [h, h1]; simp [coastFrom]

/-- A slot taken by a maintenance entry, which waits for no slot to be STARTING or COASTING (R83, R84). -/
theorem slotCloses_intoLocal (now : Time) (a : Slot) (h : isStartingOrCoasting a.st = false) :
    SlotCloses now a (intoLocal a) := by
  cases ha : a.st <;>
    simp_all [isStartingOrCoasting] <;>
    (constructor <;> simp [intoLocal, ha, driveOf, isStarting, isStartWait])

theorem Closes.refl (s : State) : Closes s s :=
  ⟨rfl, rfl, rfl, rfl, rfl, fun _ => rfl, rfl, rfl, fun _ _ => rfl, rfl, fun _ => .refl _ _, rfl, rfl, rfl,
    rfl, rfl, rfl, id, fun _ _ => rfl, rfl, rfl, rfl, rfl⟩

theorem Closes.trans {s t u : State} (h : Closes s t) (g : Closes t u) : Closes s u where
  pending := g.pending.trans h.pending
  now := g.now.trans h.now
  pt := g.pt.trans h.pt
  su := g.su.trans h.su
  sj := by rw [g.sj, h.sj]
  modeStays := fun x => by
    have e := h.modeStays x
    rw [g.modeStays (by rw [e]; exact x), e]
  iu := by rw [g.iu, h.iu]
  bare := g.bare.trans h.bare
  demand := fun id x => by
    have e := h.demand id x
    rw [g.demand id (by rw [e]; exact x), e]
  init := g.init.trans h.init
  slots := fun k => (h.slots k).trans (h.now ▸ g.slots k)
  heard := g.heard.trans h.heard
  sending := g.sending.trans h.sending
  rx := g.rx.trans h.rx
  synced := g.synced.trans h.synced
  assembly := g.assembly.trans h.assembly
  idle := g.idle.trans h.idle
  txLen := fun x => g.txLen (h.txLen x)
  health := fun f hf => (g.health f hf).trans (h.health f hf)
  accept := g.accept.trans h.accept
  refused := g.refused.trans h.refused
  conflict := g.conflict.trans h.conflict
  commanded := g.commanded.trans h.commanded

/-- Placing a frame closes nothing else. -/
theorem LineRest.closes {s t : State} (h : LineRest s t) : Closes s t where
  pending := h.pending
  now := h.now
  pt := h.pt
  su := h.su
  sj := by rw [h.sj]
  modeStays := fun _ => by rw [h.sj]
  iu := by rw [h.iu]
  bare := by rw [h.iu]
  demand := fun _ _ => by rw [h.iu]
  init := by rw [h.fs]
  slots := fun k => by rw [slot_of_fs h.fs]; exact .refl _ _
  heard := h.heard
  sending := h.sending
  rx := h.rx
  synced := h.synced
  assembly := h.assembly
  idle := h.idle
  txLen := h.txLen
  health := h.health
  accept := by rw [h.no]
  refused := by rw [h.no]
  conflict := by rw [h.no]
  commanded := by rw [h.no]

/-! ## The stages -/

/-- A change of mode between QUIET, INCIDENT and MAINTENANCE. -/
theorem closes_setMode (m : Mode) (s : State)
    (h : s.sj.mode = .joining ∨ s.sj.mode = .maintenance ∨ s.sj.mode = .configFault → m = s.sj.mode) :
    Closes s (setMode m s) :=
  ⟨rfl, rfl, rfl, rfl, rfl, h, rfl, rfl, fun _ _ => rfl, rfl, fun _ => .refl _ _, rfl, rfl, rfl,
    rfl, rfl, rfl, id, fun _ _ => rfl, rfl, rfl, rfl, rfl⟩

theorem closes_followList (s : State) : Closes s (followList s) := by
  unfold followList
  split
  · rename_i h; exact closes_setMode _ s (by simp [h])
  · rename_i h; exact closes_setMode _ s (by simp [h])
  all_goals exact .refl s

/-- Only the planner's own items differ. -/
theorem closes_tp (s : State) (tp : Tp) : Closes s { s with tp := tp } :=
  ⟨rfl, rfl, rfl, rfl, rfl, fun _ => rfl, rfl, rfl, fun _ _ => rfl, rfl, fun _ => .refl _ _, rfl, rfl, rfl,
    rfl, rfl, rfl, id, fun _ _ => rfl, rfl, rfl, rfl, rfl⟩

theorem closes_governingChanged (b s : State) : Closes s (governingChanged b s) := by
  unfold governingChanged
  split
  · split
    · split
      · exact .refl s
      · exact closes_tp s _
    · exact closes_tp s _
  · exact closes_tp s _
  · exact closes_tp s _
  · exact .refl s

theorem map_bare_setDemand (rs : List Rec) (id : Id) (d : Option Demand) :
    (setDemand rs id d).map bare = rs.map bare := by
  unfold setDemand
  rw [List.map_map]
  apply List.map_congr_left
  intro r _
  simp only [Function.comp]
  cases h : r.st with
  | active c o => by_cases hid : r.id = id <;> simp [h, hid, bare]
  | absorbed y => simp [bare, h]
  | ended n t => simp [bare, h]

/-- Writing the demand part of one record leaves every other record as it was. -/
theorem findRec_setDemand_ne (rs : List Rec) {id x : Id} (d : Option Demand) (h : x ≠ id) :
    findRec (setDemand rs id d) x = findRec rs x := by
  induction rs with
  | nil => rfl
  | cons r rs ih =>
    obtain ⟨i, st⟩ := r
    unfold findRec setDemand at *
    simp only [List.map_cons, List.find?_cons]
    by_cases hx : i = x
    · have hne : i ≠ id := by rw [hx]; exact h
      cases st <;> simp [hx, h]
    · have hb : (i == x) = false := by simpa using hx
      cases st with
      | active c o =>
        by_cases hi : i = id
        · subst hi; simpa [hb] using ih
        · simpa [hb, hi] using ih
      | absorbed y => simpa [hb] using ih
      | ended n t => simpa [hb] using ih

/-- Writing a demand part where the record held none. -/
theorem closes_writeDemand (g : Governing) (d : Demand) (s : State)
    (h : (findRec s.iu.records g.id).bind demandHeld = none) : Closes s (writeDemand g d s) := by
  unfold writeDemand
  refine ⟨rfl, rfl, rfl, rfl, rfl, fun _ => rfl, rfl, map_bare_setDemand _ _ _, fun id hid => ?_, rfl,
    fun _ => .refl _ _, rfl, rfl, rfl, rfl, rfl, rfl, id, fun _ _ => rfl, rfl, rfl, rfl, rfl⟩
  refine findRec_setDemand_ne _ _ ?_
  rintro rfl
  rw [h] at hid
  cases hid

/-- The governing record as the list holds it (R18). -/
theorem governing_rec {s : State} {g : Governing} (h : governing s = some g) :
    ∃ r, findRec s.iu.records g.id = some r ∧ r.st = .active g.content g.demand := by
  unfold governing at h
  split at h
  · cases h
  · split at h
    · cases h
    · rename_i r hr
      split at h
      · rename_i c d hst
        simp only [Option.some.injEq] at h
        subst h
        exact ⟨r, hr, hst⟩
      · cases h
      · cases h

theorem governing_demand {s : State} {g : Governing} (h : governing s = some g) :
    (findRec s.iu.records g.id).bind demandHeld = g.demand := by
  obtain ⟨r, hr, hst⟩ := governing_rec h
  simp [hr, demandHeld, hst]

theorem closes_enterPace (g : Governing) (s : State)
    (h : (findRec s.iu.records g.id).bind demandHeld = g.demand) : Closes s (enterPace g s) := by
  unfold enterPace
  dsimp only
  split
  · exact closes_tp s _
  · rename_i hd
    exact (closes_tp s _).trans (closes_writeDemand _ _ _ (by rw [← hd]; exact h))

theorem closes_setPace (p : Pace) (g : Governing) (s : State)
    (h : (findRec s.iu.records g.id).bind demandHeld = g.demand) : Closes s (setPace p g s) := by
  unfold setPace
  split
  · split
    · exact .refl s
    · exact closes_enterPace g s h
  all_goals exact closes_tp s _

theorem handTargets_slot (ts : Quad Target) (s : State) (k : SlotNo) :
    (handTargets ts s).slot k = handTarget s.slotCtx (ts.get k) (s.slot k) := by
  simp [handTargets, State.slot]

theorem closes_handTargets (ts : Quad Target) (s : State) : Closes s (handTargets ts s) := by
  have hk := handTargets_slot ts s
  constructor
  case slots => intro k; rw [hk]; exact slotCloses_handTarget s.slotCtx _ _
  all_goals simp [handTargets]

theorem closes_recompute (s : State) : Closes s (recompute s) := by
  unfold recompute
  split
  · exact (closes_tp s _).trans (closes_handTargets _ _)
  · rename_i g hg
    refine (closes_tp s _).trans ((closes_setPace _ g _ ?_).trans (closes_handTargets _ _))
    exact governing_demand hg

theorem closes_recomputeIfDue (b s : State) : Closes s (recomputeIfDue b s) := by
  unfold recomputeIfDue
  split
  · exact .refl s
  · split
    · exact .refl s
    · exact closes_recompute s

theorem lineRest_withdrawClaim (c : Claim) (s : State) : LineRest s (withdrawClaim c s) :=
  (lineRest_allEarly s).trans ((lineRest_setOwn _ _).trans (lineRest_place _ _))

theorem lineRest_releaseClaim (c : Claim) (s : State) : LineRest s (releaseClaim c s) :=
  (lineRest_setOwn _ _).trans (lineRest_place _ _)

theorem lineRest_followSlot (s : State) : LineRest s (followSlot s) := by
  unfold followSlot
  split
  · split
    · exact .refl s
    · exact lineRest_withdrawClaim _ s
  · split
    · exact .refl s
    · exact lineRest_releaseClaim _ s
  · exact .refl s

theorem closes_planned (b s : State) : Closes s (planned b s) :=
  (closes_recomputeIfDue b s).trans (lineRest_followSlot _).closes

theorem maintReady_slots {s : State} (h : maintReady s = true) (k : SlotNo) :
    isStartingOrCoasting (s.slot k).st = false := by
  simp only [maintReady, Bool.and_eq_true, Bool.not_eq_true'] at h
  exact (Quad.any_eq_false _ _).1 h.2 k

theorem closes_enterMaintenance (s : State) (h : maintReady s = true) :
    Closes s (enterMaintenance s) := by
  have hk (k : SlotNo) : (enterMaintenance s).slot k = intoLocal (s.slot k) := by
    simp [enterMaintenance, State.slot]
  constructor
  case slots => intro k; rw [hk]; exact slotCloses_intoLocal _ _ (maintReady_slots h k)
  case modeStays =>
    intro hm
    simp only [maintReady, Bool.and_eq_true, Bool.or_eq_true, beq_iff_eq] at h
    rcases h.1.2 with e | e <;> simp [e] at hm
  all_goals first | rfl | (intros; rfl) | simp [enterMaintenance]

theorem closes_enterIfReady (s : State) : Closes s (enterIfReady s) := by
  unfold enterIfReady
  split
  · rename_i h
    exact (closes_enterMaintenance s h).trans (closes_planned _ _)
  · exact .refl s

/-- Only the claim number counter, the own claim and the spacing timer differ. -/
theorem lineRest_claim (s : State) (n : BitVec 8) (o : OwnClaim) (t : Option Time) :
    LineRest s { s with cu := { s.cu with counter := n, own := o, spacingDue := t } } := by
  constructor <;> simp

theorem lineRest_placeClaim (k : SlotNo) (a b : Nat) (s : State) : LineRest s (placeClaim k a b s) := by
  unfold placeClaim
  exact (lineRest_claim s _ _ _).trans (lineRest_place _ _)

theorem lineRest_testClaim (s : State) : LineRest s (testClaim s) := by
  unfold testClaim
  split
  · exact .refl s
  · exact lineRest_placeClaim _ _ _ s

theorem closes_followFlash (b s : State) : Closes s (followFlash b s) := by
  unfold followFlash
  exact ⟨rfl, rfl, rfl, rfl, rfl, fun _ => rfl, rfl, rfl, fun _ _ => rfl, rfl, fun _ => .refl _ _, rfl, rfl, rfl,
    rfl, rfl, rfl, id, fun _ _ => rfl, rfl, rfl, rfl, rfl⟩

theorem closes_follow (b s : State) : Closes s (follow b s) :=
  (closes_followList s).trans ((closes_governingChanged b _).trans ((closes_planned b _).trans
    ((closes_enterIfReady _).trans ((lineRest_testClaim _).closes.trans (closes_followFlash b _)))))

theorem closes_ba (s : State) (ba : Ba) : Closes s { s with ba := ba } :=
  ⟨rfl, rfl, rfl, rfl, rfl, fun _ => rfl, rfl, rfl, fun _ _ => rfl, rfl, fun _ => .refl _ _, rfl, rfl, rfl,
    rfl, rfl, rfl, id, fun _ _ => rfl, rfl, rfl, rfl, rfl⟩

theorem closes_placeStatus (s : State) : Closes s (placeStatus s) :=
  (closes_ba s _).trans (lineRest_place _ _).closes

theorem closes_placeEarly (s : State) : Closes s (placeEarly s) := by
  unfold placeEarly
  dsimp only
  split
  · exact closes_placeStatus s
  · exact (closes_placeStatus s).trans (closes_ba _ _)

theorem closes_requestEarly (b s : State) : Closes s (requestEarly b s) := by
  unfold requestEarly
  split
  · split
    · exact .refl s
    · split
      · exact closes_placeEarly s
      · exact closes_ba _ _
  · exact .refl s

/-- What closing an event leaves as it was. -/
theorem closes_closeEvent (b s : State) : Closes s (closeEvent b s) :=
  (closes_follow b s).trans (closes_requestEarly b _)

end Sys2Proof.Machine
end

