-- ==== Sys2Proof/Laws/Settled.lean ====
section
/-! SUPPORT. A settled state has nothing left to follow: an event that touches nothing the closing stages
look at ends with its own effect. -/

namespace Sys2Proof.Machine

theorem governing_congr {s u : State} (hj : u.sj.straps = s.sj.straps)
    (hr : u.iu.records = s.iu.records) : governing u = governing s := by
  unfold governing State.station; rw [hj, hr]

theorem anyActive_congr {s u : State} (hr : u.iu.records = s.iu.records) :
    anyActive u = anyActive s := by unfold anyActive; rw [hr]

theorem availableFans_congr {s u : State} (hm : u.sj.mode = s.sj.mode)
    (hf : u.fs.slots = s.fs.slots) : availableFans u = availableFans s := by
  unfold availableFans; rw [hm, hf]

theorem slot_congr {s u : State} (hf : u.fs.slots = s.fs.slots) (k : SlotNo) :
    u.slot k = s.slot k := by unfold State.slot; rw [hf]

theorem waitingSlot_congr {s u : State} (hf : u.fs.slots = s.fs.slots) :
    waitingSlot u = waitingSlot s := by
  unfold waitingSlot; congr 1; funext k; rw [slot_congr hf]

theorem maintReady_congr {s u : State} (hm : u.sj.mode = s.sj.mode) (hf : u.fs.slots = s.fs.slots)
    (hp : u.fs.maintPending = s.fs.maintPending) : maintReady u = maintReady s := by
  unfold maintReady; rw [hm, hf, hp]

/-- The own claim without its timer. -/
def ownShape : OwnClaim → Option (Bool × Claim)
  | .none => none
  | .settling c _ => some (false, c)
  | .granted c _ => some (true, c)

theorem ownShape_none {o : OwnClaim} : ownShape o = none ↔ o = .none := by
  cases o <;> simp [ownShape]

/-- `u` differs from `s` in nothing that the closing stages look at. -/
structure Inert (s u : State) : Prop where
  sj : u.sj = s.sj
  records : u.iu.records = s.iu.records
  pace : u.tp.pace = s.tp.pace
  classRank : u.tp.classRank = s.tp.classRank
  slots : u.fs.slots = s.fs.slots
  entry : u.fs.maintPending = s.fs.maintPending
  own : ownShape u.cu.own = ownShape s.cu.own
  view : u.cu.view.length < 2 → s.cu.view.length < 2
  spacing : u.cu.spacingDue = none → s.cu.spacingDue = none
  peers : u.pt.map peerTrigger = s.pt.map peerTrigger
  health : healthOctet u = healthOctet s
  cls : tempClass u.su.heat.value = tempClass s.su.heat.value

theorem claimTest_none_of_inert {s u : State} (h : Inert s u) (hs : claimTest s = none) :
    claimTest u = none := by
  have ho : u.cu.own = .none ↔ s.cu.own = .none := by
    rw [← ownShape_none, ← ownShape_none, h.own]
  unfold claimTest at hs ⊢
  rw [waitingSlot_congr h.slots, h.classRank]
  split
  · rename_i k c r hu hw hc
    rw [ho.1 hu, hw, hc] at hs
    simp only at hs
    rw [governing_congr (by rw [h.sj]) h.records, h.sj, h.entry]
    split
    · rename_i hu
      have : s.sj.mode = .incident ∧ (governing s).isSome = true ∧ s.fs.maintPending = false ∧
          s.cu.view.length < 2 ∧ s.cu.spacingDue = none :=
        ⟨hu.1, hu.2.1, hu.2.2.1, h.view hu.2.2.2.1, h.spacing hu.2.2.2.2⟩
      simp [this] at hs
    · rfl
  · rfl

theorem followList_settled {s : State} (h : ModeByList s) : followList s = s := by
  obtain ⟨h1, h2⟩ := h
  have set_same (m : Mode) (hm : s.sj.mode = m) : setMode m s = s := by subst hm; rfl
  unfold followList
  split
  · rename_i hm; rw [h2 hm]; exact set_same _ hm
  · rename_i hm; rw [h1 hm]; exact set_same _ hm
  all_goals rfl

theorem ClaimStands.followSlot_eq {s : State} (h : ClaimStands s) : followSlot s = s := by
  unfold ClaimStands at h
  unfold followSlot
  split <;> rename_i ho <;> rw [ho] at h
  · simp [h.1, h.2]
  · simp [h]

theorem yieldEnded_same {s u : State} (h : governing u = governing s) : yieldEnded s u = false := by
  unfold yieldEnded
  rw [h]
  split
  · rename_i a b ha hb
    rw [ha] at hb
    cases hb
    simp
  · rfl

theorem governingChanged_same {s u : State} (h : governing u = governing s) :
    governingChanged s u = u := by
  unfold governingChanged
  rw [h]
  cases governing s <;> simp

theorem followFlash_same {s u : State} (h : u.fs.slots = s.fs.slots) : followFlash s u = u := by
  unfold followFlash
  have : u.no.flash.mapNo (fun k f => flashFor u.now (s.slot k) (u.slot k) f) = u.no.flash := by
    apply Quad.ext_get
    intro k
    simp [slot_congr h, flashFor]
  rw [this]

theorem healthOctet_congr {s u : State} (hh : u.health = s.health) (hf : u.fs.slots = s.fs.slots) :
    healthOctet u = healthOctet s := by
  unfold healthOctet lockoutPresent; rw [hh, hf]

theorem demandOf_congr {s u : State} (hj : u.sj.straps = s.sj.straps) : demandOf u = demandOf s := by
  funext g; unfold demandOf State.initialD; rw [hj]

theorem triggerOf_inert {s u : State} (h : Inert s u) : triggerOf s = triggerOf u := by
  unfold triggerOf
  rw [governing_congr (by rw [h.sj]) h.records, demandOf_congr (by rw [h.sj]), h.sj, h.cls, h.peers,
    availableFans_congr (by rw [h.sj]) h.slots]

theorem reportOf_inert {s u : State} (h : Inert s u) : reportOf s = reportOf u := by
  unfold reportOf ownGov ownEntries runningCount
  rw [governing_congr (by rw [h.sj]) h.records, demandOf_congr (by rw [h.sj]), h.sj, h.cls, h.pace,
    h.records, h.health, h.slots, availableFans_congr (by rw [h.sj]) h.slots]

/-- An event that touches nothing the closing stages look at ends with its own effect. -/
theorem closeEvent_inert {s u : State} (hs : Settled s) (h : Inert s u) : closeEvent s u = u := by
  have hg : governing u = governing s := governing_congr (by rw [h.sj]) h.records
  have h1 : followList u = u := followList_settled (by
    obtain ⟨a, b⟩ := hs.modeByList
    unfold ModeByList
    rw [h.sj, anyActive_congr h.records]; exact ⟨a, b⟩)
  have h2 : governingChanged s u = u := governingChanged_same hg
  have h3 : recomputeIfDue s u = u := by
    unfold recomputeIfDue
    split
    · rfl
    · simp [triggerOf_inert h, yieldEnded_same hg]
  have h4 : followSlot u = u := ClaimStands.followSlot_eq (by
    have hst := hs.claimStands
    have hsh := h.own
    unfold ClaimStands at hst ⊢
    cases hu : u.cu.own <;> cases ho : s.cu.own <;>
      simp only [hu, ho, ownShape, Option.some.injEq, Prod.mk.injEq, Bool.true_eq_false,
        Bool.false_eq_true, false_and, true_and, reduceCtorEq] at hsh hst ⊢
    · subst hsh; rw [slot_congr h.slots, h.sj]; exact hst
    · subst hsh; rw [slot_congr h.slots]; exact hst)
  have h5 : enterIfReady u = u := by
    unfold enterIfReady
    rw [maintReady_congr (by rw [h.sj]) h.slots h.entry, hs.noEntryDue]; rfl
  have h6 : testClaim u = u := by
    unfold testClaim; rw [claimTest_none_of_inert h hs.noClaimDue]
  have hp : planned s u = u := by unfold planned; rw [h3, h4]
  have hf : follow s u = u := by
    unfold follow; rw [h1, h2, hp, h5, h6]; exact followFlash_same h.slots
  unfold closeEvent requestEarly
  rw [hf]
  split
  · simp [reportOf_inert h]
  · rfl

end Sys2Proof.Machine
end

