-- ==== Sys2Proof/Laws/Following.lean ====
section
/-! SUPPORT. What closing an event brings about: whatever the event did, the state it ends with is settled. -/

namespace Sys2Proof.Machine

/-! ## What the stages leave of the mode, the slots and the own claim -/

@[simp] theorem setPace_sj (p : Pace) (g : Governing) (s : State) : (setPace p g s).sj = s.sj := by
  unfold setPace enterPace
  split
  · split
    · rfl
    · dsimp only; split <;> rfl
  all_goals rfl

@[simp] theorem handTargets_sj (ts : Quad Target) (s : State) : (handTargets ts s).sj = s.sj := rfl

@[simp] theorem handTargets_entry (ts : Quad Target) (s : State) :
    (handTargets ts s).fs.maintPending = s.fs.maintPending := rfl

@[simp] theorem setPace_fs (p : Pace) (g : Governing) (s : State) : (setPace p g s).fs = s.fs := by
  unfold setPace enterPace
  split
  · split
    · rfl
    · dsimp only; split <;> rfl
  all_goals rfl

@[simp] theorem setPace_cu (p : Pace) (g : Governing) (s : State) : (setPace p g s).cu = s.cu := by
  unfold setPace enterPace
  split
  · split
    · rfl
    · dsimp only; split <;> rfl
  all_goals rfl

@[simp] theorem setPace_li (p : Pace) (g : Governing) (s : State) : (setPace p g s).li = s.li := by
  unfold setPace enterPace
  split
  · split
    · rfl
    · dsimp only; split <;> rfl
  all_goals rfl

@[simp] theorem setPace_ba (p : Pace) (g : Governing) (s : State) : (setPace p g s).ba = s.ba := by
  unfold setPace enterPace
  split
  · split
    · rfl
    · dsimp only; split <;> rfl
  all_goals rfl

@[simp] theorem recompute_sj (s : State) : (recompute s).sj = s.sj := by
  unfold recompute; split <;> simp

@[simp] theorem recompute_entry (s : State) : (recompute s).fs.maintPending = s.fs.maintPending := by
  unfold recompute; split <;> simp

@[simp] theorem recompute_cu (s : State) : (recompute s).cu = s.cu := by
  unfold recompute; split <;> simp [handTargets]

@[simp] theorem recompute_li (s : State) : (recompute s).li = s.li := by
  unfold recompute; split <;> simp [handTargets]

@[simp] theorem recompute_ba (s : State) : (recompute s).ba = s.ba := by
  unfold recompute; split <;> simp [handTargets]

@[simp] theorem recomputeIfDue_sj (b s : State) : (recomputeIfDue b s).sj = s.sj := by
  unfold recomputeIfDue; split
  · rfl
  · split <;> simp

@[simp] theorem recomputeIfDue_entry (b s : State) :
    (recomputeIfDue b s).fs.maintPending = s.fs.maintPending := by
  unfold recomputeIfDue; split
  · rfl
  · split <;> simp

@[simp] theorem recomputeIfDue_cu (b s : State) : (recomputeIfDue b s).cu = s.cu := by
  unfold recomputeIfDue; split
  · rfl
  · split <;> simp

@[simp] theorem recomputeIfDue_li (b s : State) : (recomputeIfDue b s).li = s.li := by
  unfold recomputeIfDue; split
  · rfl
  · split <;> simp

@[simp] theorem recomputeIfDue_ba (b s : State) : (recomputeIfDue b s).ba = s.ba := by
  unfold recomputeIfDue; split
  · rfl
  · split <;> simp

@[simp] theorem governingChanged_sj (b s : State) : (governingChanged b s).sj = s.sj := by
  unfold governingChanged; split
  · split
    · split <;> rfl
    · rfl
  all_goals rfl

@[simp] theorem governingChanged_fs (b s : State) : (governingChanged b s).fs = s.fs := by
  unfold governingChanged; split
  · split
    · split <;> rfl
    · rfl
  all_goals rfl

@[simp] theorem governingChanged_cu (b s : State) : (governingChanged b s).cu = s.cu := by
  unfold governingChanged; split
  · split
    · split <;> rfl
    · rfl
  all_goals rfl

@[simp] theorem governingChanged_li (b s : State) : (governingChanged b s).li = s.li := by
  unfold governingChanged; split
  · split
    · split <;> rfl
    · rfl
  all_goals rfl

@[simp] theorem followSlot_sj (s : State) : (followSlot s).sj = s.sj := (lineRest_followSlot s).sj
@[simp] theorem followSlot_fs (s : State) : (followSlot s).fs = s.fs := (lineRest_followSlot s).fs
@[simp] theorem followSlot_iu (s : State) : (followSlot s).iu = s.iu := (lineRest_followSlot s).iu
@[simp] theorem followSlot_tp (s : State) : (followSlot s).tp = s.tp := (lineRest_followSlot s).tp
@[simp] theorem testClaim_sj (s : State) : (testClaim s).sj = s.sj := (lineRest_testClaim s).sj
@[simp] theorem testClaim_fs (s : State) : (testClaim s).fs = s.fs := (lineRest_testClaim s).fs
@[simp] theorem testClaim_iu (s : State) : (testClaim s).iu = s.iu := (lineRest_testClaim s).iu
@[simp] theorem testClaim_tp (s : State) : (testClaim s).tp = s.tp := (lineRest_testClaim s).tp

@[simp] theorem planned_sj (b s : State) : (planned b s).sj = s.sj := by simp [planned]

@[simp] theorem planned_entry (b s : State) :
    (planned b s).fs.maintPending = s.fs.maintPending := by simp [planned]

/-! ## The mode follows the list (R28) -/

theorem actives_bare (rs : List Rec) : actives (rs.map bare) = actives rs := by
  unfold actives
  rw [List.filterMap_map]
  congr 1
  funext r
  simp only [Function.comp]
  cases h : r.st <;> simp [bare, contentOf, h]

/-- The ACTIVE records stand while only demand parts change. -/
theorem Closes.actives {s t : State} (h : Closes s t) :
    Sys2Proof.Machine.actives t.iu.records = Sys2Proof.Machine.actives s.iu.records := by
  rw [← actives_bare t.iu.records, h.bare, actives_bare]

theorem Closes.anyActive {s t : State} (h : Closes s t) :
    Sys2Proof.Machine.anyActive t = Sys2Proof.Machine.anyActive s := by
  unfold Sys2Proof.Machine.anyActive; rw [h.actives]

theorem modeByList_set (s : State) :
    ModeByList (setMode (if Sys2Proof.Machine.anyActive s then .incident else .quiet) s) := by
  have e (m : Mode) : Sys2Proof.Machine.anyActive (setMode m s) = Sys2Proof.Machine.anyActive s := rfl
  unfold ModeByList
  rw [e]
  cases Sys2Proof.Machine.anyActive s <;> simp

theorem modeByList_followList (s : State) : ModeByList (followList s) := by
  unfold followList
  split
  · exact modeByList_set s
  · exact modeByList_set s
  all_goals rename_i hm; simp [ModeByList, hm]

theorem ModeByList.of_closes {s t : State} (h : ModeByList s) (hc : Closes s t)
    (hm : t.sj.mode = s.sj.mode) : ModeByList t := by
  unfold ModeByList at *
  rw [hm, hc.anyActive]; exact h

/-! ## The own claim stands with its slot (R101, R103) -/

theorem withdrawClaim_own (c : Claim) (s : State) : (withdrawClaim c s).cu.own = .none := by
  unfold withdrawClaim; rw [place_own _ _ rfl]; rfl

theorem releaseClaim_own (c : Claim) (s : State) : (releaseClaim c s).cu.own = .none := by
  unfold releaseClaim; rw [place_own _ _ rfl]; rfl

/-- What following its slot makes of the own claim (R101, R103). -/
theorem followSlot_own (s : State) :
    (followSlot s).cu.own = s.cu.own ∨ (followSlot s).cu.own = .none := by
  unfold followSlot
  split
  · split
    · exact .inl rfl
    · exact .inr (withdrawClaim_own _ _)
  · split
    · exact .inl rfl
    · exact .inr (releaseClaim_own _ _)
  · exact .inl rfl

theorem claimStands_of_none {s : State} (h : s.cu.own = .none) : ClaimStands s := by
  unfold ClaimStands; rw [h]; trivial

theorem claimStands_followSlot (s : State) : ClaimStands (followSlot s) := by
  unfold followSlot
  split
  · rename_i c t ho
    split
    · rename_i h
      unfold ClaimStands; rw [ho]
      simpa using h
    · exact claimStands_of_none (withdrawClaim_own _ _)
  · rename_i c t ho
    split
    · rename_i h
      unfold ClaimStands; rw [ho]; exact h
    · exact claimStands_of_none (releaseClaim_own _ _)
  · rename_i ho
    exact claimStands_of_none ho

theorem claimStands_planned (b s : State) : ClaimStands (planned b s) := claimStands_followSlot _

theorem claimStands_congr {s u : State} (ho : u.cu.own = s.cu.own) (hf : u.fs.slots = s.fs.slots)
    (hm : u.sj.mode = s.sj.mode) (h : ClaimStands s) : ClaimStands u := by
  unfold ClaimStands at *
  rw [ho, hm]
  cases hs : s.cu.own <;> simp only [hs] at h ⊢
  · rw [slot_congr hf]; exact h
  · rw [slot_congr hf]; exact h

theorem claimStands_enterIfReady (s : State) (h : ClaimStands s) : ClaimStands (enterIfReady s) := by
  unfold enterIfReady
  split
  · exact claimStands_planned _ _
  · exact h

/-- What a met claim test says of the state (R98). -/
theorem claimTest_some {s : State} {k : SlotNo} {a b : Nat} (h : claimTest s = some (k, a, b)) :
    s.cu.own = .none ∧ waitingSlot s = some k ∧ s.tp.classRank = some (a, b) ∧
      s.sj.mode = .incident ∧ (governing s).isSome = true ∧ s.fs.maintPending = false ∧
      s.cu.view.length < 2 ∧ s.cu.spacingDue = none := by
  unfold claimTest at h
  split at h
  · rename_i k' c r ho hw hc
    split at h
    · rename_i hc'
      cases h
      exact ⟨ho, hw, hc, hc'⟩
    · cases h
  · cases h

theorem waitingSlot_some {s : State} {k : SlotNo} (h : waitingSlot s = some k) :
    isStartWait (s.slot k).st = true := by
  unfold waitingSlot at h
  exact List.find?_some (p := fun k => isStartWait (s.slot k).st) h

/-- What placing a CLAIM makes of the own claim (R99): SETTLING, or NONE where it was not taken. -/
theorem placeClaim_own (k : SlotNo) (a b : Nat) (s : State) :
    (placeClaim k a b s).cu.own = .settling ⟨k, s.cu.counter, ⟨a, b, s.sj.serial⟩⟩ none ∨
      (placeClaim k a b s).cu.own = .none := by
  unfold placeClaim
  dsimp only
  rcases (place_cu (.claim s.sect ⟨k, s.cu.counter, ⟨a, b, s.sj.serial⟩⟩)
    { s with cu := { s.cu with
        counter := s.cu.counter + 1#8,
        own := .settling ⟨k, s.cu.counter, ⟨a, b, s.sj.serial⟩⟩ none,
        spacingDue := some (s.now + claimSpacingTime) } }).2.2 with h | ⟨h, -⟩
  · exact .inl h
  · exact .inr h

theorem placeClaim_spacing (k : SlotNo) (a b : Nat) (s : State) :
    (placeClaim k a b s).cu.spacingDue = some (s.now + claimSpacingTime) := by
  unfold placeClaim; simp

theorem claimStands_testClaim (s : State) (h : ClaimStands s) : ClaimStands (testClaim s) := by
  cases hc : claimTest s with
  | none => unfold testClaim; rw [hc]; exact h
  | some x =>
    obtain ⟨k, a, b⟩ := x
    have hk := claimTest_some hc
    have e : testClaim s = placeClaim k a b s := by unfold testClaim; rw [hc]
    rw [e]
    have hf := (lineRest_placeClaim k a b s)
    rcases placeClaim_own k a b s with ho | ho
    · unfold ClaimStands; rw [ho]
      refine ⟨?_, by rw [hf.sj, hk.2.2.2.1]; decide⟩
      rw [slot_of_fs hf.fs]; exact waitingSlot_some hk.2.1
    · exact claimStands_of_none ho

theorem claimTest_of_own {s : State} (h : s.cu.own ≠ .none) : claimTest s = none := by
  cases hc : claimTest s with
  | none => rfl
  | some x => exact absurd (claimTest_some (k := x.1) (a := x.2.1) (b := x.2.2) hc).1 h

theorem claimTest_of_spacing {s : State} (h : s.cu.spacingDue ≠ none) : claimTest s = none := by
  cases hc : claimTest s with
  | none => rfl
  | some x =>
    exact absurd (claimTest_some (k := x.1) (a := x.2.1) (b := x.2.2) hc).2.2.2.2.2.2.2 h

/-- Once the claim test has been made, it is not met again at the same event (R98). -/
theorem claimTest_testClaim (s : State) : claimTest (testClaim s) = none := by
  cases hc : claimTest s with
  | none =>
    have : testClaim s = s := by unfold testClaim; rw [hc]
    rw [this, hc]
  | some x =>
    obtain ⟨k, a, b⟩ := x
    have e : testClaim s = placeClaim k a b s := by unfold testClaim; rw [hc]
    rw [e]
    exact claimTest_of_spacing (by rw [placeClaim_spacing]; simp)

theorem maintReady_of_not_pending {s : State} (h : s.fs.maintPending = false) :
    maintReady s = false := by simp [maintReady, h]

theorem maintReady_enterIfReady (s : State) : maintReady (enterIfReady s) = false := by
  unfold enterIfReady
  split
  · exact maintReady_of_not_pending (by simp [enterMaintenance])
  · rename_i h; simpa using h

/-! ## A settled state -/

theorem Settled.congr {s u : State} (h : Settled s) (hc : Closes s u) (hj : u.sj = s.sj)
    (hf : u.fs = s.fs) (hr : u.iu.records = s.iu.records) (ht : u.tp.classRank = s.tp.classRank)
    (ho : u.cu.own = s.cu.own) (hs : u.cu.spacingDue = s.cu.spacingDue) : Settled u where
  modeByList := h.modeByList.of_closes hc (by rw [hj])
  claimStands := claimStands_congr ho (by rw [hf]) (by rw [hj]) h.claimStands
  noClaimDue := by
    have hl : u.cu.view.length = s.cu.view.length := by
      have := congrArg List.length hc.heard
      simpa using this
    have := h.noClaimDue
    unfold claimTest at this ⊢
    rw [ho, waitingSlot_congr (s := s) (by rw [hf]), ht, governing_congr (by rw [hj]) hr, hj, hf, hl, hs]
    exact this
  noEntryDue := by rw [maintReady_congr (s := s) (by rw [hj]) (by rw [hf]) (by rw [hf])]; exact h.noEntryDue

theorem settled_enter (b s : State) (hm : ModeByList s) (hc : ClaimStands s) :
    Settled (followFlash b (testClaim (enterIfReady s))) := by
  have h3 : ModeByList (enterIfReady s) := by
    unfold enterIfReady
    split
    · unfold ModeByList; simp [enterMaintenance]
    · exact hm
  have e : Settled (testClaim (enterIfReady s)) :=
    { modeByList := h3.of_closes (lineRest_testClaim _).closes (by simp)
      claimStands := claimStands_testClaim _ (claimStands_enterIfReady s hc)
      noClaimDue := claimTest_testClaim _
      noEntryDue := by
        rw [maintReady_congr (s := enterIfReady s) (by simp) (by simp) (by simp)]
        exact maintReady_enterIfReady s }
  exact e.congr (closes_followFlash b _) rfl rfl rfl rfl rfl rfl

/-- Whatever an event did, what follows it at the same event leaves the state settled. -/
theorem settled_follow (b s : State) : Settled (follow b s) :=
  settled_enter b _
    (((modeByList_followList s).of_closes (closes_governingChanged b _) (by simp)).of_closes
      (closes_planned b _) (by simp))
    (claimStands_planned b _)

theorem settled_placeStatus {s : State} (h : Settled s) : Settled (placeStatus s) := by
  have hb : Settled { s with ba := { presenceDue := some (s.now + presencePeriod s.sj.mode),
                                     spacingDue := some (s.now + statusSpacingTime), early := false } } :=
    h.congr (closes_ba s _) rfl rfl rfl rfl rfl rfl
  have hp := lineRest_place (ownStatusBody s) { s with
    ba := { presenceDue := some (s.now + presencePeriod s.sj.mode),
            spacingDue := some (s.now + statusSpacingTime), early := false } }
  exact hb.congr hp.closes hp.sj hp.fs (congrArg Iu.records hp.iu) (congrArg Tp.classRank hp.tp)
    (place_own _ _ rfl) (place_spacing _ _)

theorem settled_placeEarly {s : State} (h : Settled s) : Settled (placeEarly s) := by
  unfold placeEarly
  dsimp only
  split
  · exact settled_placeStatus h
  · exact (settled_placeStatus h).congr (closes_ba _ _) rfl rfl rfl rfl rfl rfl

theorem settled_requestEarly (b : State) {s : State} (h : Settled s) :
    Settled (requestEarly b s) := by
  unfold requestEarly
  split
  · split
    · exact h
    · split
      · exact settled_placeEarly h
      · exact h.congr (closes_ba _ _) rfl rfl rfl rfl rfl rfl
  · exact h

/-- Whatever an event did, it ends in a settled state. -/
theorem settled_closeEvent (b s : State) : Settled (closeEvent b s) :=
  settled_requestEarly b (settled_follow b s)

/-! ## The forms of a command -/

theorem Inert.refl (s : State) : Inert s s := by constructor <;> simp

/-- Closing a settled state changes nothing. -/
theorem closeEvent_self {s : State} (h : Settled s) : closeEvent s s = s :=
  closeEvent_inert h (.refl s)

/-- A timer's command whose own effect touches nothing the closing stages look at. -/
theorem onTimer_inert {due : Option Time} {body : State → State} {s : State} {t : Time}
    (hd : due = some t) (hs : Settled s) (hi : Inert s (body (reachTime t s))) :
    onTimer due body s = .next (body (reachTime t s)) := by
  subst hd
  show Host.Outcome.next (closeEvent s (body (reachTime t s))) = _
  rw [closeEvent_inert hs hi]

/-- A command that occurs where it is ready, whose own effect touches nothing the closing stages look
at. -/
theorem onReady_inert {ready : Bool} {body : State → State} {s : State}
    (hd : ready = true) (hs : Settled s) (hi : Inert s (body s)) :
    onReady ready body s = .next (body s) := by
  subst hd
  show Host.Outcome.next (closeEvent s (body s)) = _
  rw [closeEvent_inert hs hi]

/-- A timer's command answers the state that closing leaves of its own effect. -/
theorem onTimer_closes {due : Option Time} (body : State → State) (s : State) {t : Time}
    (hd : due = some t) :
    ∃ u, onTimer due body s = .next u ∧ u = closeEvent s (body (reachTime t s)) ∧
      Closes (body (reachTime t s)) u ∧ Settled u := by
  subst hd
  exact ⟨_, rfl, rfl, closes_closeEvent _ _, settled_closeEvent _ _⟩

/-- A command that occurs where it is ready answers the state that closing leaves of its own effect. -/
theorem onReady_closes {ready : Bool} (body : State → State) (s : State) (hd : ready = true) :
    ∃ u, onReady ready body s = .next u ∧ u = closeEvent s (body s) ∧ Closes (body s) u ∧
      Settled u := by
  subst hd
  exact ⟨_, rfl, rfl, closes_closeEvent _ _, settled_closeEvent _ _⟩

end Sys2Proof.Machine
end

