-- ==== Sys2Proof/Laws/Queue.lean ====
section
/-! SUPPORT. What placing frames does to the transmit queue (R152, R153): it grows by at most one frame, a
placed STATUS or RELEASE stands in it where there was room, and a RELEASE stays in it; where a frame that takes
another's place comes to stand, what a WITHDRAW removes, and that the queue keeps its order of class. -/

namespace Sys2Proof.Machine

theorem insertTail_mem (f g : TxFrame) (q : List TxFrame) : g ∈ insertTail f q ↔ g = f ∨ g ∈ q := by
  induction q with
  | nil => simp [insertTail]
  | cons x xs ih =>
    unfold insertTail
    split
    · simp
    · simp only [List.mem_cons, ih]; tauto

theorem insertHead_mem (f g : TxFrame) (q : List TxFrame) : g ∈ insertHead f q ↔ g = f ∨ g ∈ q := by
  induction q with
  | nil => simp [insertHead]
  | cons x xs ih =>
    unfold insertHead
    split
    · simp
    · simp only [List.mem_cons, ih]; tauto

/-- A frame that takes a place stands in the queue (R153). -/
theorem replaceIn_has (b : Body) (q r : List TxFrame) (h : replaceIn b q = some r) :
    ∃ f ∈ r, f.body = b := by
  induction q generalizing r with
  | nil => simp [replaceIn] at h
  | cons x xs ih =>
    unfold replaceIn at h
    split at h
    · simp only [Option.some.injEq] at h; subst h; exact ⟨{ x with body := b }, by simp, rfl⟩
    · cases hr : replaceIn b xs with
      | none => simp [hr] at h
      | some r' =>
        simp only [hr, Option.map_some, Option.some.injEq] at h
        obtain ⟨f, hf, hb⟩ := ih r' hr
        subst h; exact ⟨f, by simp [hf], hb⟩

/-- A frame whose place nothing takes stays in the queue (R153). -/
theorem replaceIn_keeps (b : Body) (q r : List TxFrame) (h : replaceIn b q = some r) (f : TxFrame)
    (hf : f ∈ q) (hn : takesPlaceOf b f.body = false) : f ∈ r := by
  induction q generalizing r with
  | nil => simp at hf
  | cons x xs ih =>
    unfold replaceIn at h
    split at h
    · rename_i hx
      simp only [Option.some.injEq] at h
      subst h
      rcases List.mem_cons.1 hf with rfl | hm
      · rw [hn] at hx; cases hx
      · simp [hm]
    · cases hr : replaceIn b xs with
      | none => simp [hr] at h
      | some r' =>
        simp only [hr, Option.map_some, Option.some.injEq] at h
        subst h
        rcases List.mem_cons.1 hf with rfl | hm
        · simp
        · simp [ih r' hr hm]

theorem removeFirst_keeps (p : TxFrame → Bool) (q : List TxFrame) (f : TxFrame) (hf : f ∈ q)
    (hn : p f = false) : f ∈ removeFirst p q := by
  induction q with
  | nil => simp at hf
  | cons x xs ih =>
    unfold removeFirst
    rcases List.mem_cons.1 hf with rfl | hm
    · simp [hn]
    · split
      · exact hm
      · simp [ih hm]

theorem claimNotSent_li (b : Body) (s : State) : (claimNotSent b s).li = s.li := by
  unfold claimNotSent; split
  · split <;> rfl
  · rfl

theorem refuseFrame_li (b : Body) (s : State) : (refuseFrame b s).li = s.li := by
  unfold refuseFrame; rw [claimNotSent_li]; rfl

/-- The queue grows by at most one frame (R152, R153). -/
theorem place_length (b : Body) (s : State) : (place b s).li.tx.length ≤ s.li.tx.length + 1 := by
  have hj (b : Body) : (joinTail b s).li.tx.length ≤ s.li.tx.length + 1 := by
    unfold joinTail; split
    · rw [refuseFrame_li]; omega
    · simp [insertTail_length]
  have hr (b : Body) (t : State) (ht : t = match replaceIn b s.li.tx with
      | some q => setTx q s
      | none => joinTail b s) : t.li.tx.length ≤ s.li.tx.length + 1 := by
    subst ht
    split
    · rename_i q hq; simp [replaceIn_length _ _ _ hq]
    · exact hj b
  unfold place
  split
  · omega
  · split
    · split
      · have := removeFirst_length (isClaimNo ‹_›) s.li.tx
        simp only [setTx_li_tx]; omega
      · exact hj _
    all_goals exact hr _ _ rfl

/-- A frame whose place the new one does not take, and that is no CLAIM a WITHDRAW removes, stays in the
queue (R153). -/
theorem place_keeps (b : Body) (s : State) (f : TxFrame) (hf : f ∈ s.li.tx)
    (hn : takesPlaceOf b f.body = false) (hc : claimNumber f.body = none) :
    f ∈ (place b s).li.tx := by
  have hj (b : Body) : f ∈ (joinTail b s).li.tx := by
    unfold joinTail; split
    · rw [refuseFrame_li]; exact hf
    · simp [insertTail_mem, hf]
  have hr (t : State) (ht : t = match replaceIn b s.li.tx with
      | some q => setTx q s
      | none => joinTail b s) : f ∈ t.li.tx := by
    subst ht
    split
    · rename_i q hq; simpa using replaceIn_keeps b _ _ hq f hf hn
    · exact hj b
  unfold place
  split
  · exact hf
  · split
    · split
      · simp only [setTx_li_tx]
        exact removeFirst_keeps _ _ _ hf (by simp [isClaimNo, hc])
      · exact hj _
    all_goals exact hr _ rfl

/-- A frame that is not a WITHDRAW stands in the queue once placed, where there was room (R153, R158). -/
theorem place_has (b : Body) (s : State) (hm : s.sj.mode ≠ .configFault) (hl : s.li.tx.length < 10)
    (hw : ∀ a k n, b ≠ .withdraw a k n) : ∃ f ∈ (place b s).li.tx, f.body = b := by
  have hr (t : State) (ht : t = match replaceIn b s.li.tx with
      | some q => setTx q s
      | none => joinTail b s) : ∃ f ∈ t.li.tx, f.body = b := by
    subst ht
    split
    · rename_i q hq; exact replaceIn_has b _ _ hq
    · rw [joinTail_room _ _ hl]
      exact ⟨⟨b, 0⟩, by simp [insertTail_mem], rfl⟩
  unfold place
  rw [if_neg hm]
  split
  · exact absurd rfl (hw _ _ _)
  all_goals exact hr _ rfl

theorem recomputeIfDue_tx (b s : State) : (recomputeIfDue b s).li.tx = s.li.tx := by simp

theorem followSlot_length (s : State) : (followSlot s).li.tx.length ≤ s.li.tx.length + 1 := by
  unfold followSlot
  split
  · split
    · omega
    · exact place_length _ _
  · split
    · omega
    · exact place_length _ _
  · omega

theorem testClaim_length (s : State) : (testClaim s).li.tx.length ≤ s.li.tx.length + 1 := by
  unfold testClaim
  split
  · omega
  · exact place_length _ _

theorem planned_length (b s : State) : (planned b s).li.tx.length ≤ s.li.tx.length + 1 := by
  unfold planned
  refine (followSlot_length _).trans ?_
  simp

/-- A placed STATUS stands in the queue where there was room (R143, R153). -/
theorem placeStatus_has (s : State) (hm : s.sj.mode ≠ .configFault) (hl : s.li.tx.length < 10) :
    ∃ f ∈ (placeStatus s).li.tx, f.body = ownStatusBody s :=
  place_has _ { s with ba := { presenceDue := some (s.now + presencePeriod s.sj.mode),
                               spacingDue := some (s.now + statusSpacingTime), early := false } }
    hm hl (by simp [ownStatusBody])

/-! ## Where a placed frame comes to stand -/

/-- The first frame that `b` takes the place of gives it its place and its attempt count (R153). -/
theorem replaceIn_at (b : Body) {l r : List TxFrame} {y : TxFrame}
    (hy : takesPlaceOf b y.body = true) (hl : ∀ x ∈ l, takesPlaceOf b x.body = false) :
    replaceIn b (l ++ y :: r) = some (l ++ ⟨b, y.attempts⟩ :: r) := by
  induction l with
  | nil => simp [replaceIn, hy]
  | cons x xs ih =>
    simp [replaceIn, hl x (by simp), ih fun z hz => hl z (by simp [hz])]

/-- The first frame that satisfies `p` is taken out. -/
theorem removeFirst_at (p : TxFrame → Bool) {l r : List TxFrame} {y : TxFrame} (hy : p y = true)
    (hl : ∀ x ∈ l, p x = false) : removeFirst p (l ++ y :: r) = l ++ r := by
  induction l with
  | nil => simp [removeFirst, hy]
  | cons x xs ih => simp [removeFirst, hl x (by simp), ih fun z hz => hl z (by simp [hz])]

/-- A frame placed where one waits whose place it takes stands in that place, with its attempt count (R153). -/
theorem place_replaces (b : Body) {s : State} {l r : List TxFrame} {y : TxFrame}
    (hm : s.sj.mode ≠ .configFault) (hq : s.li.tx = l ++ y :: r)
    (hy : takesPlaceOf b y.body = true) (hl : ∀ x ∈ l, takesPlaceOf b x.body = false) :
    place b s = setTx (l ++ ⟨b, y.attempts⟩ :: r) s := by
  unfold place
  rw [if_neg hm, hq, replaceIn_at b hy hl]
  cases b <;> first | rfl | simp [takesPlaceOf] at hy

/-- A WITHDRAW placed while its CLAIM waits unsent removes that CLAIM and is not queued (R153). -/
theorem place_withdraw_unsent (n : Nat) (k : SlotNo) (m : BitVec 8) {s : State} {l r : List TxFrame}
    {y : TxFrame} (hm : s.sj.mode ≠ .configFault) (hq : s.li.tx = l ++ y :: r)
    (hy : claimNumber y.body = some m) (hl : ∀ x ∈ l, claimNumber x.body ≠ some m) :
    place (.withdraw n k m) s = setTx (l ++ r) s := by
  have hp : isClaimNo m y = true := by simp [isClaimNo, hy]
  have hn : ∀ x ∈ l, isClaimNo m x = false := fun x hx => by simp [isClaimNo, hl x hx]
  unfold place
  rw [if_neg hm]
  simp only [hq]
  rw [if_pos (by simp [hp]), removeFirst_at _ hp hn]

/-- A frame that joins the tail of its class keeps the queue in order of class (R152). -/
theorem insertTail_classes (f : TxFrame) {q : List TxFrame}
    (h : (q.map fun g => bodyClass g.body).Pairwise (· ≤ ·)) :
    ((insertTail f q).map fun g => bodyClass g.body).Pairwise (· ≤ ·) := by
  induction q with
  | nil => simp [insertTail]
  | cons x xs ih =>
    obtain ⟨hx, hs⟩ := List.pairwise_cons.1 h
    unfold insertTail
    split
    next hlt =>
      refine List.pairwise_cons.2 ⟨fun c hc => ?_, h⟩
      rcases List.mem_cons.1 hc with rfl | hc
      · exact Nat.le_of_lt hlt
      · exact Nat.le_trans (Nat.le_of_lt hlt) (hx c hc)
    next hge =>
      refine List.pairwise_cons.2 ⟨fun c hc => ?_, ih hs⟩
      obtain ⟨g, hg, rfl⟩ := List.mem_map.1 hc
      rcases (insertTail_mem f g xs).1 hg with rfl | hg
      · exact Nat.le_of_not_lt hge
      · exact hx _ (List.mem_map_of_mem hg)

/-- A frame that returns to the head of its class keeps the queue in order of class (R152, R156). -/
theorem insertHead_classes (f : TxFrame) {q : List TxFrame}
    (h : (q.map fun g => bodyClass g.body).Pairwise (· ≤ ·)) :
    ((insertHead f q).map fun g => bodyClass g.body).Pairwise (· ≤ ·) := by
  induction q with
  | nil => simp [insertHead]
  | cons x xs ih =>
    obtain ⟨hx, hs⟩ := List.pairwise_cons.1 h
    unfold insertHead
    split
    next hle =>
      refine List.pairwise_cons.2 ⟨fun c hc => ?_, h⟩
      rcases List.mem_cons.1 hc with rfl | hc
      · exact hle
      · exact Nat.le_trans hle (hx c hc)
    next hgt =>
      refine List.pairwise_cons.2 ⟨fun c hc => ?_, ih hs⟩
      obtain ⟨g, hg, rfl⟩ := List.mem_map.1 hc
      rcases (insertHead_mem f g xs).1 hg with rfl | hg
      · exact Nat.le_of_lt (Nat.lt_of_not_le hgt)
      · exact hx _ (List.mem_map_of_mem hg)

end Sys2Proof.Machine
end

