-- ==== Sys2Proof/Laws/Incidents.lean ====
section
/-! SUPPORT. What the incident list's own operations (Machine/Incidents.lean) leave as it was: they touch the
list and its timers, the transmit queue, three health flags and the conflict lamp. -/

namespace Sys2Proof.Machine

/-- What the operations on the incident list leave as it was. -/
structure IuRest (s t : State) : Prop where
  pending : t.pending = s.pending
  now : t.now = s.now
  sj : t.sj = s.sj
  tp : t.tp = s.tp
  fs : t.fs = s.fs
  cu : t.cu = s.cu
  pt : t.pt = s.pt
  su : t.su = s.su
  ba : t.ba = s.ba
  sending : t.li.sending = s.li.sending
  rx : t.li.rx = s.li.rx
  synced : t.li.synced = s.li.synced
  assembly : t.li.assembly = s.li.assembly
  idle : t.li.idleSince = s.li.idleSince
  txLen : s.li.tx.length ≤ 10 → t.li.tx.length ≤ 10
  health : ∀ f, f ≠ .txCongested → f ≠ .incidentOverflow → f ≠ .directionConflict →
    t.health.get f = s.health.get f
  accept : t.no.acceptDue = s.no.acceptDue
  refused : t.no.refusedDue = s.no.refusedDue
  flash : t.no.flash = s.no.flash
  commanded : t.no.commanded = s.no.commanded
  held : t.iu.heldAlarm = s.iu.heldAlarm
  repeats : t.iu.endRepeats = s.iu.endRepeats

theorem IuRest.refl (s : State) : IuRest s s := by constructor <;> simp

theorem IuRest.trans {s t u : State} (h : IuRest s t) (g : IuRest t u) : IuRest s u where
  pending := g.pending.trans h.pending
  now := g.now.trans h.now
  sj := g.sj.trans h.sj
  tp := g.tp.trans h.tp
  fs := g.fs.trans h.fs
  cu := g.cu.trans h.cu
  pt := g.pt.trans h.pt
  su := g.su.trans h.su
  ba := g.ba.trans h.ba
  sending := g.sending.trans h.sending
  rx := g.rx.trans h.rx
  synced := g.synced.trans h.synced
  assembly := g.assembly.trans h.assembly
  idle := g.idle.trans h.idle
  txLen := fun x => g.txLen (h.txLen x)
  health := fun f a b c => (g.health f a b c).trans (h.health f a b c)
  accept := g.accept.trans h.accept
  refused := g.refused.trans h.refused
  flash := g.flash.trans h.flash
  commanded := g.commanded.trans h.commanded
  held := g.held.trans h.held
  repeats := g.repeats.trans h.repeats

/-- Placing anything but a CLAIM leaves the Claim Unit as it was (R91, R152). -/
theorem place_cu_eq (b : Body) (s : State) (h : claimNumber b = none) : (place b s).cu = s.cu := by
  have hj : (joinTail b s).cu = s.cu := by
    unfold joinTail refuseFrame claimNotSent
    rw [h]
    split <;> rfl
  have hr (t : State) (ht : t = match replaceIn b s.li.tx with
      | some q => setTx q s
      | none => joinTail b s) : t.cu = s.cu := by
    subst ht
    split
    · rfl
    · exact hj
  unfold place
  split
  · rfl
  · split
    · split
      · rfl
      · exact hj
    all_goals exact hr _ rfl

theorem iuRest_place (b : Body) (s : State) (h : claimNumber b = none) : IuRest s (place b s) := by
  have p := lineRest_place b s
  exact ⟨p.pending, p.now, p.sj, p.tp, p.fs, place_cu_eq b s h, p.pt, p.su, p.ba, p.sending, p.rx,
    p.synced, p.assembly, p.idle, p.txLen, fun f hf _ _ => p.health f hf, by rw [p.no], by rw [p.no],
    by rw [p.no], by rw [p.no], by rw [p.iu], by rw [p.iu]⟩

/-- Only the list, its counter, rates, re-announces and count of endings differ. -/
theorem iuRest_iu (s : State) (rs : List Rec) (n : BitVec 4) (a b c : List IdTime) (m : Nat) :
    IuRest s { s with iu := { s.iu with
      records := rs, counter := n, reannounce := a, incidentSent := b, endSent := c, endings := m } } := by
  constructor <;> simp

theorem iuRest_setRecords (rs : List Rec) (s : State) : IuRest s (setRecords rs s) :=
  iuRest_iu s rs _ _ _ _ _

theorem iuRest_setReannounce (l : List IdTime) (s : State) : IuRest s (setReannounce l s) :=
  iuRest_iu s _ _ l _ _ _

theorem iuRest_raise (f : TimedFlag) (s : State)
    (h : f = .txCongested ∨ f = .incidentOverflow ∨ f = .directionConflict) :
    IuRest s (raiseFlag f s) := by
  constructor <;> simp
  intro g h1 h2 h3
  refine Health.get_set_ne _ _ ?_
  rintro rfl
  rcases h with h | h | h <;> contradiction

theorem iuRest_enterConflict (s : State) : IuRest s (enterConflict s) := by
  constructor <;> simp
  intro g h1 h2 h3
  exact Health.get_set_ne _ _ h3

theorem iuRest_noteConflict (a b : Content) (s : State) : IuRest s (noteConflict a b s) := by
  unfold noteConflict
  split
  · exact iuRest_enterConflict s
  · exact .refl s

theorem iuRest_replaceContent (id : Id) (a b : Content) (s : State) :
    IuRest s (replaceContent id a b s) :=
  (iuRest_setRecords _ s).trans (iuRest_noteConflict _ _ _)

theorem iuRest_catchUp (id : Id) (s : State) : IuRest s (catchUp id s) := by
  unfold catchUp
  split
  · exact iuRest_iu s _ _ _ _ _ _
  · exact .refl s

theorem iuRest_placeIncident (id : Id) (s : State) : IuRest s (placeIncident id s) := by
  unfold placeIncident
  split
  · exact (iuRest_iu s _ _ _ _ _ _).trans (iuRest_place _ _ rfl)
  · exact .refl s

theorem iuRest_placeEnd (id : Id) (s : State) : IuRest s (placeEnd id s) :=
  (iuRest_iu s _ _ _ _ _ _).trans (iuRest_place _ _ rfl)

theorem iuRest_answerEnd (id : Id) (s : State) : IuRest s (answerEnd id s) := by
  unfold answerEnd
  split
  · exact .refl s
  · exact iuRest_placeEnd id s

theorem iuRest_triggerReannounce (id : Id) (s : State) : IuRest s (triggerReannounce id s) := by
  unfold triggerReannounce
  split
  · exact iuRest_setReannounce _ s
  · exact .refl s

theorem iuRest_triggerAll (l : List Id) (s : State) : IuRest s (triggerAll l s) := by
  induction l generalizing s with
  | nil => exact .refl s
  | cons id ids ih => exact (iuRest_triggerReannounce id s).trans (ih _)

theorem iuRest_foldInto (x y : Id) (s : State) : IuRest s (foldInto x y s) := by
  unfold foldInto
  split
  · exact (iuRest_setRecords _ s).trans
      ((iuRest_replaceContent _ _ _ _).trans (iuRest_noteConflict _ _ _))
  · exact .refl s

theorem iuRest_absorbPair (p : Id × Id) (s : State) : IuRest s (absorbPair p s) :=
  (iuRest_foldInto _ _ s).trans (iuRest_triggerAll _ _)

theorem iuRest_takeBurnt (s : State) : IuRest s (takeBurnt s) :=
  (iuRest_setRecords _ s).trans (iuRest_triggerAll _ _)

theorem iuRest_settleSpans (n : Nat) (s : State) : IuRest s (settleSpans n s) := by
  induction n generalizing s with
  | zero => exact .refl s
  | succ n ih =>
    unfold settleSpans
    split
    · exact (iuRest_absorbPair _ s).trans (ih _)
    · split
      · exact .refl s
      · exact (iuRest_takeBurnt s).trans (ih _)

theorem iuRest_grown (s : State) : IuRest s (grown s) := iuRest_settleSpans _ s

theorem iuRest_declare (s : State) : IuRest s (declare s) := by
  unfold declare
  split
  · exact iuRest_raise _ s (.inr (.inl rfl))
  · exact (iuRest_iu s _ _ _ _ _ _).trans ((iuRest_placeIncident _ _).trans (iuRest_grown _))

theorem iuRest_extendRecords (s : State) : IuRest s (extendRecords s) := by
  unfold extendRecords
  dsimp only
  split
  · exact .refl s
  · exact (iuRest_setRecords _ s).trans ((iuRest_triggerAll _ _).trans (iuRest_grown _))

theorem iuRest_actOnAlarm (s : State) : IuRest s (actOnAlarm s) := by
  unfold actOnAlarm
  split
  · exact iuRest_extendRecords s
  · exact iuRest_declare s

theorem iuRest_endChain (g : Id) (s : State) : IuRest s (endChain g s) := iuRest_iu s _ _ _ _ _ _

theorem iuRest_addEnded (rs : List Rec) (id : Id) (s : State) : IuRest s (addEnded rs id s) :=
  iuRest_iu s _ _ _ _ _ _

theorem iuRest_receiveEnd (id : Id) (s : State) : IuRest s (receiveEnd id s) := by
  unfold receiveEnd
  split
  · split
    · exact .refl s
    · exact iuRest_addEnded _ _ s
  · split
    · exact .refl s
    · exact iuRest_endChain _ s

theorem iuRest_applyView (id : Id) (c : Content) (s : State) : IuRest s (applyView id c s).1 := by
  unfold applyView
  split
  · split
    · exact iuRest_raise _ s (.inr (.inl rfl))
    · exact iuRest_setRecords _ s
  · split
    · exact iuRest_replaceContent _ _ _ s
    · exact iuRest_answerEnd _ s
    · exact .refl s

theorem iuRest_dropSaid (id : Id) (b : Bool) (s : State) : IuRest s (dropSaid id b s) := by
  unfold dropSaid
  split
  · exact iuRest_setReannounce _ s
  · exact .refl s

theorem iuRest_divergeFrom (id : Id) (c : Content) (s : State) : IuRest s (divergeFrom id c s) := by
  unfold divergeFrom
  split
  · exact .refl s
  · split
    · exact iuRest_triggerReannounce _ s
    · exact .refl s

theorem iuRest_receiveActive (id : Id) (c : Content) (s : State) :
    IuRest s (receiveActive id c s) := by
  unfold receiveActive
  dsimp only
  split
  · exact iuRest_applyView _ _ s
  · exact (iuRest_applyView _ _ s).trans ((iuRest_grown _).trans
      ((iuRest_dropSaid _ _ _).trans (iuRest_divergeFrom _ _ _)))

theorem iuRest_absorbNoted (x y : Id) (s : State) : IuRest s (absorbNoted x y s) := by
  unfold absorbNoted
  split
  · exact .refl s
  · split
    · unfold absorbIntoEnded
      split
      · split
        · exact iuRest_raise _ s (.inr (.inl rfl))
        · exact iuRest_addEnded _ _ s
      · split
        · exact iuRest_endChain _ s
        · exact .refl s
        · exact iuRest_answerEnd _ s
    · unfold absorbIntoActive
      split
      · split
        · exact iuRest_raise _ s (.inr (.inl rfl))
        · exact iuRest_setRecords _ s
      · split
        · split
          · exact .refl s
          · exact (iuRest_foldInto _ _ s).trans (iuRest_setRecords _ _)
        · exact .refl s
        · exact iuRest_answerEnd _ s

theorem iuRest_receiveAbsorbed (x y : Id) (c : Content) (s : State) :
    IuRest s (receiveAbsorbed x y c s) := by
  unfold receiveAbsorbed
  dsimp only
  split
  · exact iuRest_applyView _ _ s
  · exact (iuRest_applyView _ _ s).trans ((iuRest_absorbNoted _ _ _).trans ((iuRest_grown _).trans
      ((iuRest_dropSaid _ _ _).trans ((iuRest_divergeFrom _ _ _).trans (iuRest_divergeFrom _ _ _)))))

theorem iuRest_catchUpAll (l : List Id) (s : State) : IuRest s (catchUpAll l s) := by
  induction l generalizing s with
  | nil => exact .refl s
  | cons id ids ih => exact (iuRest_catchUp id s).trans (ih _)

theorem iuRest_answerAll (l : List Id) (s : State) : IuRest s (answerAll l s) := by
  induction l generalizing s with
  | nil => exact .refl s
  | cons id ids ih =>
    unfold answerAll
    split
    · exact (iuRest_answerEnd id s).trans (ih _)
    · exact ih _

theorem iuRest_takeStatus (st : StatusPart) (s : State) : IuRest s (takeStatus st s) := by
  unfold takeStatus
  dsimp only
  have h := (iuRest_catchUpAll ((match st.gov with | none => [] | some g => [g.id]) ++
    st.entries.map Entry.id) s).trans (iuRest_answerAll (mentions st) _)
  split
  · exact h
  · exact h.trans (iuRest_triggerReannounce _ _)

end Sys2Proof.Machine
end

