-- ==== Sys2Proof/Laws/Forms.lean ====
section
/-! SUPPORT. The forms of a command, read backwards: where a next state comes from; and what every command
does while a reset holds the part. -/

namespace Sys2Proof.Machine

/-- A timer's command leaves the state where the timer is stopped, and else ends its event. -/
theorem onTimer_next {due : Option Time} {body : State → State} {s u : State}
    (h : onTimer due body s = .next u) :
    (due = none ∧ u = s) ∨ ∃ t, due = some t ∧ u = closeEvent s (body (reachTime t s)) := by
  cases due with
  | none => left; simp only [onTimer, Host.Outcome.next.injEq] at h; exact ⟨rfl, h.symm⟩
  | some t => right; simp only [onTimer, Host.Outcome.next.injEq] at h; exact ⟨t, rfl, h.symm⟩

theorem onReady_next {ready : Bool} {body : State → State} {s u : State}
    (h : onReady ready body s = .next u) :
    (ready = false ∧ u = s) ∨ (ready = true ∧ u = closeEvent s (body s)) := by
  cases ready with
  | false => left; simp only [onReady, Bool.false_eq_true, if_false, Host.Outcome.next.injEq] at h; exact ⟨rfl, h.symm⟩
  | true => right; simp only [onReady, if_true, Host.Outcome.next.injEq] at h; exact ⟨rfl, h.symm⟩

theorem takeFrame_next {k : FrameKind} {s u : State} (h : takeFrame k s = .next u) :
    u = s ∨ ∃ f fs, s.li.rx = f :: fs ∧ classify s.count f = k ∧
      u = closeEvent s (dispatch f (setRx fs s)) := by
  unfold takeFrame at h
  split at h
  · simp only [Host.Outcome.next.injEq] at h; exact .inl h.symm
  · rename_i f fs hrx
    split at h
    · rename_i hk
      simp only [Host.Outcome.next.injEq] at h; exact .inr ⟨f, fs, hrx, hk, h.symm⟩
    · simp only [Host.Outcome.next.injEq] at h; exact .inl h.symm

/-- The commands that are no event of a timer, a frame or the line: the resets and the pins. -/
def isPlain : Instr → Bool
  | .powerOnReset | .externalReset | .resetRelease _ | .inputLevelChange _ _ | .slotInputChange _ _ _ =>
    true
  | .joinTimerExpiry | .sensorRound | .sensorSample _ _ _
  | .debounceExpiry _ | .maintenanceEntry | .slotInputFilterExpiry _ _
  | .slotInputInitialLevels | .startTimerExpiry _ | .coastTimerExpiry _ | .tripHoldExpiry _
  | .paceUpdate | .changeTimerExpiry | .yieldHoldExpiry _ | .incidentReceived | .endReceived
  | .reannounce _ | .endRepeat _ | .endingTimerExpiry _ | .statusReceived | .peerSilent _
  | .claimReceived | .withdrawReceived | .releaseReceived | .invalidFrameTaken | .claimPlacement
  | .claimSpacingExpiry | .settleExpiry | .claimRenewal | .claimEntryExpiry _
  | .presenceTimerExpiry | .statusSpacingExpiry | .healthFlagExpiry _ | .sendStart | .sendSuccess
  | .collision _ _ | .receiverSync | .frameArrival _ | .rxFrameDiscard _ _ | .rxTruncation
  | .cmdLampExpiry _ | .slotFltPhase _ | .characterReceived _ _ => false

/-! ## While a reset holds the part -/

theorem onTimer_stopped {due : Option Time} (body : State → State) (s : State) (h : due = none) :
    onTimer due body s = .next s := by subst h; rfl

theorem onReady_not {ready : Bool} (body : State → State) (s : State) (h : ready = false) :
    onReady ready body s = .next s := by subst h; rfl

/-- Whether the own start bit falls in the bit time that has begun (R154). -/
theorem sendsNow_iff (s : State) : sendsNow s = true ↔ ∃ t, sendDue s = some t ∧ t ≤ s.now := by
  unfold sendsNow
  cases h : sendDue s with
  | none => simp
  | some t => simp

/-- While no send is due, a character is taken or is none (R150). -/
theorem onCharacter_listening (ready : Bool) (o : Octet) (stop : Bool) {s : State}
    (h : ∀ t, sendDue s = some t → s.now < t) :
    onCharacter ready o stop s = onReady ready (takeCharacter o stop) s := by
  have hn : ¬ sendsNow s = true := by
    rw [sendsNow_iff]
    rintro ⟨t, ht, hle⟩
    exact absurd (h t ht) (Nat.not_lt.2 hle)
  unfold onCharacter
  rw [if_neg hn]

/-- Where the own send starts in the same bit time, a character of another station starts it (R154). -/
theorem onCharacter_sends (ready : Bool) (o : Octet) (stop : Bool) {s : State} {t : Time}
    (h : sendDue s = some t) (ht : t ≤ s.now) : onCharacter ready o stop s = execSendStart s := by
  have hs : sendsNow s = true := (sendsNow_iff s).2 ⟨t, h, ht⟩
  unfold onCharacter execSendStart
  rw [if_pos hs]

/-- A character that finds no send due and no receiver ready changes nothing (log 2). -/
theorem onCharacter_idle {ready : Bool} (o : Octet) (stop : Bool) {s : State} (hd : sendDue s = none)
    (h : ready = false) : onCharacter ready o stop s = .next s := by
  rw [onCharacter_listening _ _ _ (by simp [hd]), onReady_not _ _ h]

theorem takeFrame_empty (k : FrameKind) (s : State) (h : s.li.rx = []) :
    takeFrame k s = .next s := by unfold takeFrame; rw [h]

theorem slotHeld_timers (keep : Bool) (sl : Slot) :
    startDue (slotHeld keep sl) = none ∧ coastDue (slotHeld keep sl) = none ∧
      tripHoldDue (slotHeld keep sl) = none ∧ isStartWait (slotHeld keep sl).st = false ∧
      ∀ i, ((slotHeld keep sl).input i).due = none := by
  refine ⟨?_, ?_, ?_, ?_, ?_⟩
  · unfold startDue slotHeld; cases sl.st <;> cases keep <;> rfl
  · unfold coastDue slotHeld; cases sl.st <;> cases keep <;> rfl
  · unfold tripHoldDue slotHeld; cases sl.st <;> cases keep <;> rfl
  · unfold slotHeld; cases sl.st <;> cases keep <;> rfl
  · intro i; cases i <;> rfl

/-- While a reset holds the part no timer runs, no frame is held and nothing is pending (R168). -/
structure NothingRuns (s : State) : Prop where
  held : s.sj.held = true
  mode : s.sj.mode = .joining
  join : s.sj.joinDue = none
  round : s.su.roundDue = none
  transaction : s.su.transaction = none
  input : ∀ i, (s.su.input i).due = none
  entry : s.fs.maintPending = false
  init : s.fs.initDue = none
  slot : ∀ k, s.slot k = slotHeld true (s.slot k)
  update : s.tp.updateDue = none
  change : s.tp.changeDue = none
  records : s.iu.records = []
  reannounce : s.iu.reannounce = []
  repeats : s.iu.endRepeats = []
  rx : s.li.rx = []
  sending : s.li.sending = none
  peers : s.pt = []
  own : s.cu.own = .none
  spacing : s.cu.spacingDue = none
  view : s.cu.view = []
  presence : s.ba.presenceDue = none
  status : s.ba.spacingDue = none
  health : ∀ f, s.health.get f = none
  lamps : ∀ l, lampDue l s = none
  flash : ∀ k, (s.no.flash.get k).due = none

theorem nothingRuns_holdReset (b : Bool) (s : State) (h : holdReset true s = s) :
    NothingRuns (holdReset b s) where
  held := rfl
  mode := rfl
  join := rfl
  round := rfl
  transaction := rfl
  input := fun i => by cases i <;> rfl
  entry := rfl
  init := rfl
  slot := fun k => by
    have : (holdReset true s).slot k = slotHeld true (s.slot k) := by simp [holdReset, State.slot]
    have e : (holdReset b s).slot k = slotHeld b (s.slot k) := by simp [holdReset, State.slot]
    rw [e]
    rw [h] at this
    rw [this]
    unfold slotHeld
    cases (s.slot k).st <;> cases b <;> rfl
  update := rfl
  change := rfl
  records := rfl
  reannounce := rfl
  repeats := rfl
  rx := rfl
  sending := rfl
  peers := rfl
  own := rfl
  spacing := rfl
  view := rfl
  presence := rfl
  status := rfl
  health := fun f => by cases f <;> rfl
  lamps := fun l => by cases l <;> rfl
  flash := fun k => by cases k <;> rfl

theorem HeldInReset.nothingRuns {s : State} (h : HeldInReset s) (hh : s.sj.held = true) :
    NothingRuns s := by
  have e := h hh
  have := nothingRuns_holdReset true s e
  rwa [e] at this

theorem NothingRuns.receiving {s : State} (h : NothingRuns s) :
    Sys2Proof.Machine.receiving s = false := by simp [Sys2Proof.Machine.receiving, h.held]

theorem NothingRuns.claimTest {s : State} (h : NothingRuns s) :
    Sys2Proof.Machine.claimTest s = none := by
  cases hc : Sys2Proof.Machine.claimTest s with
  | none => rfl
  | some x =>
    have := (claimTest_some (k := x.1) (a := x.2.1) (b := x.2.2) hc).2.2.2.1
    rw [h.mode] at this; cases this

/-- A timer's command while no timer runs: the Sensing Unit, the slots and the plan. -/
theorem exec_stopped_niche {i : Instr} {s : State} (h : NothingRuns s) :
    (i = .joinTimerExpiry ∨ i = .sensorRound ∨ (∃ a b c, i = .sensorSample a b c) ∨
      (∃ n, i = .debounceExpiry n) ∨ i = .maintenanceEntry ∨
      (∃ k n, i = .slotInputFilterExpiry k n) ∨ i = .slotInputInitialLevels ∨
      (∃ k, i = .startTimerExpiry k) ∨ (∃ k, i = .coastTimerExpiry k) ∨
      (∃ k, i = .tripHoldExpiry k) ∨ i = .paceUpdate ∨ i = .changeTimerExpiry ∨
      ∃ id, i = .yieldHoldExpiry id) → exec i s = .next s := by
  have st (k : SlotNo) := slotHeld_timers true (s.slot k)
  rintro (rfl | rfl | ⟨a, b, c, rfl⟩ | ⟨n, rfl⟩ | rfl | ⟨k, n, rfl⟩ | rfl | ⟨k, rfl⟩ | ⟨k, rfl⟩ |
    ⟨k, rfl⟩ | rfl | rfl | ⟨id, rfl⟩)
  · simp only [exec, execJoinTimerExpiry, h.join]
  · simp only [exec, execSensorRound, onTimer_stopped _ _ h.round]
  · simp only [exec, execSensorSample, h.transaction]
  · simp only [exec, execDebounceExpiry, onTimer_stopped _ _ (h.input n)]
  · have : maintReady s = false := maintReady_of_not_pending h.entry
    simp only [exec, execMaintenanceEntry, onReady_not _ _ this]
  · have : ((s.slot k).input n).due = none := by rw [h.slot k]; exact (st k).2.2.2.2 n
    simp only [exec, execSlotInputFilterExpiry, onTimer_stopped _ _ this]
  · simp only [exec, execSlotInputInitialLevels, onTimer_stopped _ _ h.init]
  · have : startDue (s.slot k) = none := by rw [h.slot k]; exact (st k).1
    simp only [exec, execStartTimerExpiry, onTimer_stopped _ _ this]
  · have : coastDue (s.slot k) = none := by rw [h.slot k]; exact (st k).2.1
    simp only [exec, execCoastTimerExpiry, onTimer_stopped _ _ this]
  · have : tripHoldDue (s.slot k) = none := by rw [h.slot k]; exact (st k).2.2.1
    simp only [exec, execTripHoldExpiry, onTimer_stopped _ _ this]
  · simp only [exec, execPaceUpdate, onTimer_stopped _ _ h.update]
  · simp only [exec, execChangeTimerExpiry, onTimer_stopped _ _ h.change]
  · have : yieldDueOf s.iu.records id = none := by rw [h.records]; rfl
    simp only [exec, execYieldHoldExpiry, onTimer_stopped _ _ this]

/-- The Incident Unit's, the Claim Unit's and the bulletins' commands while nothing runs. -/
theorem exec_stopped_bore {i : Instr} {s : State} (h : NothingRuns s) :
    (i = .incidentReceived ∨ i = .endReceived ∨ (∃ id, i = .reannounce id) ∨
      (∃ id, i = .endRepeat id) ∨ (∃ id, i = .endingTimerExpiry id) ∨ i = .statusReceived ∨
      (∃ p, i = .peerSilent p) ∨ i = .claimReceived ∨ i = .withdrawReceived ∨
      i = .releaseReceived ∨ i = .invalidFrameTaken ∨ i = .claimPlacement ∨
      i = .claimSpacingExpiry ∨ i = .settleExpiry ∨ i = .claimRenewal ∨
      (∃ p, i = .claimEntryExpiry p) ∨ i = .presenceTimerExpiry ∨ i = .statusSpacingExpiry ∨
      ∃ f, i = .healthFlagExpiry f) → exec i s = .next s := by
  rintro (rfl | rfl | ⟨id, rfl⟩ | ⟨id, rfl⟩ | ⟨id, rfl⟩ | rfl | ⟨p, rfl⟩ | rfl | rfl | rfl | rfl | rfl |
    rfl | rfl | rfl | ⟨p, rfl⟩ | rfl | rfl | ⟨f, rfl⟩)
  · simp only [exec, execIncidentReceived, takeFrame_empty _ _ h.rx]
  · simp only [exec, execEndReceived, takeFrame_empty _ _ h.rx]
  · have : timeOf s.iu.reannounce id = none := by rw [h.reannounce]; rfl
    simp only [exec, execReannounce, onTimer_stopped _ _ this]
  · have : timeOf s.iu.endRepeats id = none := by rw [h.repeats]; rfl
    simp only [exec, execEndRepeat, onTimer_stopped _ _ this]
  · have : endingDue s.iu.records id = none := by rw [h.records]; rfl
    simp only [exec, execEndingTimerExpiry, onTimer_stopped _ _ this]
  · simp only [exec, execStatusReceived, takeFrame_empty _ _ h.rx]
  · have : silentDue (peerOf s.pt p) = none := by rw [h.peers]; rfl
    simp only [exec, execPeerSilent, onTimer_stopped _ _ this]
  · simp only [exec, execClaimReceived, takeFrame_empty _ _ h.rx]
  · simp only [exec, execWithdrawReceived, takeFrame_empty _ _ h.rx]
  · simp only [exec, execReleaseReceived, takeFrame_empty _ _ h.rx]
  · simp only [exec, execInvalidFrameTaken, takeFrame_empty _ _ h.rx]
  · have : (claimTest s).isSome = false := by rw [h.claimTest]; rfl
    simp only [exec, execClaimPlacement, onReady_not _ _ this]
  · simp only [exec, execClaimSpacingExpiry, onTimer_stopped _ _ h.spacing]
  · simp only [exec, execSettleExpiry, h.own]
  · simp only [exec, execClaimRenewal, h.own]
  · have : entryDue s.cu.view p = none := by rw [h.view]; rfl
    simp only [exec, execClaimEntryExpiry, onTimer_stopped _ _ this]
  · simp only [exec, execPresenceTimerExpiry, onTimer_stopped _ _ h.presence]
  · simp only [exec, execStatusSpacingExpiry, onTimer_stopped _ _ h.status]
  · simp only [exec, execHealthFlagExpiry, onTimer_stopped _ _ (h.health f)]

/-- The line's and the outputs' commands while nothing runs. -/
theorem exec_stopped_line {i : Instr} {s : State} (h : NothingRuns s) :
    (i = .sendStart ∨ i = .sendSuccess ∨ (∃ k b, i = .collision k b) ∨ i = .receiverSync ∨
      (∃ o, i = .frameArrival o) ∨ (∃ o b, i = .rxFrameDiscard o b) ∨ i = .rxTruncation ∨
      (∃ l, i = .cmdLampExpiry l) ∨ (∃ k, i = .slotFltPhase k) ∨
      ∃ o b, i = .characterReceived o b) → exec i s = .next s := by
  have hr := h.receiving
  have hd : sendDue s = none := by
    unfold sendDue; split
    · rfl
    · simp [hr]
  rintro (rfl | rfl | ⟨k, b, rfl⟩ | rfl | ⟨o, rfl⟩ | ⟨o, b, rfl⟩ | rfl | ⟨l, rfl⟩ | ⟨k, rfl⟩ | ⟨o, b, rfl⟩)
  · simp only [exec, execSendStart, onTimer_stopped _ _ hd]
  · simp only [exec, execSendSuccess, h.sending]
  · simp only [exec, execCollision, h.sending]
  · have : syncDue s = none := by simp [syncDue, hr]
    simp only [exec, execReceiverSync, onTimer_stopped _ _ this]
  · simp only [exec, execFrameArrival, hr, Bool.false_and, onCharacter_idle _ _ hd rfl]
  · simp only [exec, execRxFrameDiscard, hr, Bool.false_and, onCharacter_idle _ _ hd rfl]
  · have : truncationDue s = none := by simp [truncationDue, hr]
    simp only [exec, execRxTruncation, onTimer_stopped _ _ this]
  · simp only [exec, execCmdLampExpiry, onTimer_stopped _ _ (h.lamps l)]
  · simp only [exec, execSlotFltPhase, onTimer_stopped _ _ (h.flash k)]
  · simp only [exec, execCharacterReceived, onCharacter_idle _ _ hd hr]

/-- While a reset holds the part no event occurs: a command that is neither a reset, the release nor a pin
changes nothing (R168). -/
theorem exec_held {i : Instr} {s : State} (h : HeldInReset s) (hh : s.sj.held = true)
    (hi : isPlain i = false) : exec i s = .next s := by
  have q := h.nothingRuns hh
  cases i <;>
    first
    | (simp [isPlain] at hi; done)
    | (refine exec_stopped_niche q ?_; simp; done)
    | (refine exec_stopped_bore q ?_; simp; done)
    | (refine exec_stopped_line q ?_; simp)

end Sys2Proof.Machine
end

