-- ==== Sys2Proof/Laws/Effects.lean ====
section
/-! SUPPORT. Every event is its own effect and what follows it: `effect` names the own effect of each command
that is neither a reset, nor a pin, nor the end of JOINING, and `exec_effect` says that such a command
answers with it closed, or with the state it found where there is no such event. -/

namespace Sys2Proof.Machine

/-- The state a timer's own effect gives; none where the timer is stopped. -/
def timed (due : Option Time) (body : State → State) (s : State) : Option State :=
  due.map fun t => body (reachTime t s)

/-- The state a ready command's own effect gives; none where it is not ready. -/
def whenReady (ready : Bool) (body : State → State) (s : State) : Option State :=
  if ready then some (body s) else none

/-- The state dispatching the head frame of kind `k` gives; none where there is none. -/
def taken (k : FrameKind) (s : State) : Option State :=
  match s.li.rx with
  | [] => none
  | f :: fs => if classify s.count f = k then some (dispatch f (setRx fs s)) else none

/-- What a collided character does to the frame being sent. -/
def collisionEffect (k : Nat) (back : BitVec 10) (s : State) : Option State :=
  match s.li.sending with
  | none => none
  | some x =>
    match (sendingOctets s x)[k]? with
    | none => none
    | some o =>
      if back = characterBits o then none
      else timed (some (sentBy s x (k + 1)))
        (fun s => collided { x.frame with attempts := x.frame.attempts + 1 } (endAttempt s)) s

/-- The own effect of a sample. -/
def sampleEffect (high low check : Octet) (s : State) : Option State :=
  match s.su.transaction with
  | none => none
  | some t => timed (some t.ends) (fun s => takeSample t.sensor (sampleValue t.sensor high low check)
      (beginTransaction (nextSensor t.sensor) s)) s

/-- The own effect of the settle timer. -/
def settleEffect (s : State) : Option State :=
  match s.cu.own with
  | .settling c due => timed due (settle c) s
  | .granted _ _ | .none => none

/-- The own effect of the renewal timer. -/
def renewEffect (s : State) : Option State :=
  match s.cu.own with
  | .granted c due => timed due (renewClaim c) s
  | .settling _ _ | .none => none

/-- The own effect of a frame sent whole. -/
def successEffect (s : State) : Option State :=
  match s.li.sending with
  | none => none
  | some x => timed (some (sentBy s x (sendingOctets s x).length))
      (fun s => claimSent x.frame.body (endAttempt s)) s

/-- The own effect of a character of another station: the own send's, where that starts in the same bit time. -/
def characterEffect (ready : Bool) (o : Octet) (stop : Bool) (s : State) : Option State :=
  if sendsNow s then timed (sendDue s) startSend s else whenReady ready (takeCharacter o stop) s

/-- The own effect of each command that is an event of its own; none for the resets, the pins and the end of
JOINING. -/
def effect (i : Instr) (s : State) : Option State :=
  match i with
  | .powerOnReset => none
  | .externalReset => none
  | .resetRelease _ => none
  | .joinTimerExpiry => none
  | .inputLevelChange _ _ => none
  | .slotInputChange _ _ _ => none
  | .sensorRound => timed s.su.roundDue nextRound s
  | .sensorSample high low check => sampleEffect high low check s
  | .debounceExpiry n => timed (s.su.input n).due
      (fun s => inputActs n (setSu (s.su.setInput n (inputTaken (s.su.input n))) s)) s
  | .maintenanceEntry => whenReady (maintReady s) enterMaintenance s
  | .slotInputFilterExpiry k n => timed ((s.slot k).input n).due
      (slotActs k fun x sl => actOnInput x n (sl.setInput n (pinTaken (sl.input n)))) s
  | .slotInputInitialLevels => timed s.fs.initDue takeStartingLevels s
  | .startTimerExpiry k => timed (startDue (s.slot k)) (slotActs k startExpired) s
  | .coastTimerExpiry k => timed (coastDue (s.slot k)) (slotActs k coastExpired) s
  | .tripHoldExpiry k => timed (tripHoldDue (s.slot k)) (slotActs k tripHoldExpired) s
  | .paceUpdate => timed s.tp.updateDue paceUpdate s
  | .changeTimerExpiry => timed s.tp.changeDue (fun s => { s with tp := { s.tp with changeDue := none } }) s
  | .yieldHoldExpiry id => timed (yieldDueOf s.iu.records id) (removeYield id) s
  | .incidentReceived => taken .incident s
  | .endReceived => taken .ending s
  | .statusReceived => taken .status s
  | .claimReceived => taken .claim s
  | .withdrawReceived => taken .withdraw s
  | .releaseReceived => taken .release s
  | .invalidFrameTaken => taken .invalid s
  | .reannounce id => timed (timeOf s.iu.reannounce id) (endDefer id) s
  | .endRepeat id => timed (timeOf s.iu.endRepeats id) (repeatEnd id) s
  | .endingTimerExpiry id => timed (endingDue s.iu.records id)
      (fun s => setRecords (s.iu.records.filter fun r => r.id != id) s) s
  | .peerSilent p => timed (silentDue (peerOf s.pt p)) (fun s => grown (silencePeer p s)) s
  | .claimPlacement => whenReady (claimTest s).isSome testClaim s
  | .claimSpacingExpiry => timed s.cu.spacingDue (fun s => { s with cu := { s.cu with spacingDue := none } }) s
  | .settleExpiry => settleEffect s
  | .claimRenewal => renewEffect s
  | .claimEntryExpiry p => timed (entryDue s.cu.view p)
      (fun s => setView (s.cu.view.filter fun e => e.station != p) s) s
  | .presenceTimerExpiry => timed s.ba.presenceDue placeStatus s
  | .statusSpacingExpiry => timed s.ba.spacingDue endSpacing s
  | .healthFlagExpiry f => timed (s.health.get f) (fun s => { s with health := s.health.set f none }) s
  | .sendStart => timed (sendDue s) startSend s
  | .sendSuccess => successEffect s
  | .collision k back => collisionEffect k back s
  | .receiverSync => timed (syncDue s) (fun s => { s with li := { s.li with synced := true } }) s
  | .frameArrival o => characterEffect (receiving s && hear s.li o true == .arrived) o true s
  | .rxFrameDiscard o stop => characterEffect (receiving s && hear s.li o stop == .discarded) o stop s
  | .rxTruncation => timed (truncationDue s) discardAssembly s
  | .cmdLampExpiry l => timed (lampDue l s) (lampExpired l) s
  | .slotFltPhase k => timed (s.no.flash.get k).due
      (fun s => { s with no := { s.no with
        flash := s.no.flash.set k
          (flashToggle s.now (patternOf (s.slot k).st) (s.no.flash.get k)) } }) s
  | .characterReceived o stop => characterEffect (receiving s) o stop s

/-- What a command answers whose own effect is `x`, if it has one. -/
def closed (s : State) (x : Option State) : Outcome :=
  match x with
  | none => .next s
  | some x => .next (closeEvent s x)

theorem onTimer_timed (due : Option Time) (body : State → State) (s : State) :
    onTimer due body s = closed s (timed due body s) := by cases due <;> rfl

theorem onReady_ready (ready : Bool) (body : State → State) (s : State) :
    onReady ready body s = closed s (whenReady ready body s) := by cases ready <;> rfl

theorem onCharacter_effect (ready : Bool) (o : Octet) (stop : Bool) (s : State) :
    onCharacter ready o stop s = closed s (characterEffect ready o stop s) := by
  unfold onCharacter characterEffect
  split
  · exact onTimer_timed _ _ _
  · exact onReady_ready _ _ _

theorem takeFrame_taken (k : FrameKind) (s : State) : takeFrame k s = closed s (taken k s) := by
  unfold takeFrame taken
  cases s.li.rx with
  | nil => rfl
  | cons f fs =>
    dsimp only
    by_cases h : classify s.count f = k
    · rw [if_pos h, if_pos h]; rfl
    · rw [if_neg h, if_neg h]; rfl

theorem sensorSample_effect (a b c : Octet) (s : State) :
    execSensorSample a b c s = closed s (sampleEffect a b c s) := by
  unfold execSensorSample sampleEffect
  cases s.su.transaction with
  | none => rfl
  | some t => exact onTimer_timed _ _ _

theorem settleExpiry_effect (s : State) : execSettleExpiry s = closed s (settleEffect s) := by
  unfold execSettleExpiry settleEffect
  cases s.cu.own with
  | settling c t => exact onTimer_timed _ _ _
  | granted c t => rfl
  | none => rfl

theorem claimRenewal_effect (s : State) : execClaimRenewal s = closed s (renewEffect s) := by
  unfold execClaimRenewal renewEffect
  cases s.cu.own with
  | granted c t => exact onTimer_timed _ _ _
  | settling c t => rfl
  | none => rfl

theorem sendSuccess_effect (s : State) : execSendSuccess s = closed s (successEffect s) := by
  unfold execSendSuccess successEffect
  cases s.li.sending with
  | none => rfl
  | some x => exact onTimer_timed _ _ _

theorem collision_effect (k : Nat) (back : BitVec 10) (s : State) :
    execCollision k back s = closed s (collisionEffect k back s) := by
  unfold execCollision collisionEffect
  cases s.li.sending with
  | none => rfl
  | some x =>
    dsimp only
    cases (sendingOctets s x)[k]? with
    | none => rfl
    | some o =>
      dsimp only
      by_cases h : back = characterBits o
      · rw [if_pos h, if_pos h]; rfl
      · rw [if_neg h, if_neg h]; exact onTimer_timed _ _ _

/-- A command that is neither a reset, nor a pin, nor the end of JOINING answers with its own effect closed,
or with the state it found where there is no such event (log 2). -/
theorem exec_effect (i : Instr) (s : State) (hi : isPlain i = false) (hj : i ≠ .joinTimerExpiry) :
    exec i s = closed s (effect i s) := by
  cases i with
  | powerOnReset => cases hi
  | externalReset => cases hi
  | resetRelease w => cases hi
  | inputLevelChange a b => cases hi
  | slotInputChange a b c => cases hi
  | joinTimerExpiry => exact absurd rfl hj
  | sensorRound => simp only [exec, execSensorRound, effect, onTimer_timed]
  | sensorSample x y z => simp only [exec, effect, sensorSample_effect]
  | debounceExpiry x => simp only [exec, execDebounceExpiry, effect, onTimer_timed]
  | maintenanceEntry => simp only [exec, execMaintenanceEntry, effect, onReady_ready]
  | slotInputFilterExpiry x y => simp only [exec, execSlotInputFilterExpiry, effect, onTimer_timed]
  | slotInputInitialLevels => simp only [exec, execSlotInputInitialLevels, effect, onTimer_timed]
  | startTimerExpiry x => simp only [exec, execStartTimerExpiry, effect, onTimer_timed]
  | coastTimerExpiry x => simp only [exec, execCoastTimerExpiry, effect, onTimer_timed]
  | tripHoldExpiry x => simp only [exec, execTripHoldExpiry, effect, onTimer_timed]
  | paceUpdate => simp only [exec, execPaceUpdate, effect, onTimer_timed]
  | changeTimerExpiry => simp only [exec, execChangeTimerExpiry, effect, onTimer_timed]
  | yieldHoldExpiry x => simp only [exec, execYieldHoldExpiry, effect, onTimer_timed]
  | incidentReceived => simp only [exec, execIncidentReceived, effect, takeFrame_taken]
  | endReceived => simp only [exec, execEndReceived, effect, takeFrame_taken]
  | statusReceived => simp only [exec, execStatusReceived, effect, takeFrame_taken]
  | claimReceived => simp only [exec, execClaimReceived, effect, takeFrame_taken]
  | withdrawReceived => simp only [exec, execWithdrawReceived, effect, takeFrame_taken]
  | releaseReceived => simp only [exec, execReleaseReceived, effect, takeFrame_taken]
  | invalidFrameTaken => simp only [exec, execInvalidFrameTaken, effect, takeFrame_taken]
  | reannounce x => simp only [exec, execReannounce, effect, onTimer_timed]
  | endRepeat x => simp only [exec, execEndRepeat, effect, onTimer_timed]
  | endingTimerExpiry x => simp only [exec, execEndingTimerExpiry, effect, onTimer_timed]
  | peerSilent x => simp only [exec, execPeerSilent, effect, onTimer_timed]
  | claimPlacement => simp only [exec, execClaimPlacement, effect, onReady_ready]
  | claimSpacingExpiry => simp only [exec, execClaimSpacingExpiry, effect, onTimer_timed]
  | settleExpiry => simp only [exec, effect, settleExpiry_effect]
  | claimRenewal => simp only [exec, effect, claimRenewal_effect]
  | claimEntryExpiry x => simp only [exec, execClaimEntryExpiry, effect, onTimer_timed]
  | presenceTimerExpiry => simp only [exec, execPresenceTimerExpiry, effect, onTimer_timed]
  | statusSpacingExpiry => simp only [exec, execStatusSpacingExpiry, effect, onTimer_timed]
  | healthFlagExpiry x => simp only [exec, execHealthFlagExpiry, effect, onTimer_timed]
  | sendStart => simp only [exec, execSendStart, effect, onTimer_timed]
  | sendSuccess => simp only [exec, effect, sendSuccess_effect]
  | collision x y => simp only [exec, effect, collision_effect]
  | receiverSync => simp only [exec, execReceiverSync, effect, onTimer_timed]
  | frameArrival x => simp only [exec, execFrameArrival, effect, onCharacter_effect]
  | rxFrameDiscard x y => simp only [exec, execRxFrameDiscard, effect, onCharacter_effect]
  | rxTruncation => simp only [exec, execRxTruncation, effect, onTimer_timed]
  | cmdLampExpiry x => simp only [exec, execCmdLampExpiry, effect, onTimer_timed]
  | slotFltPhase x => simp only [exec, execSlotFltPhase, effect, onTimer_timed]
  | characterReceived x y => simp only [exec, execCharacterReceived, effect, onCharacter_effect]

/-- Where such a command answers a next state, it is the state found or its own effect closed. -/
theorem exec_effect_next {i : Instr} {s u : State} (hi : isPlain i = false)
    (hj : i ≠ .joinTimerExpiry) (h : exec i s = .next u) :
    (effect i s = none ∧ u = s) ∨ ∃ x, effect i s = some x ∧ u = closeEvent s x := by
  rw [exec_effect i s hi hj] at h
  cases he : effect i s with
  | none => rw [he] at h; left; simp only [closed, Host.Outcome.next.injEq] at h; exact ⟨rfl, h.symm⟩
  | some x =>
    rw [he] at h; right
    simp only [closed, Host.Outcome.next.injEq] at h; exact ⟨x, rfl, h.symm⟩

end Sys2Proof.Machine
end

