-- ==== Sys2Proof/Laws/Ground.lean ====
section
/-! SUPPORT. What no event touches: the reset itself, the straps, the factory serial and the queue of commands;
and the clock never goes back. -/

namespace Sys2Proof.Machine

/-- What no event touches, and the clock. -/
structure Ground (s t : State) : Prop where
  held : t.sj.held = s.sj.held
  straps : t.sj.straps = s.sj.straps
  serial : t.sj.serial = s.sj.serial
  pending : t.pending = s.pending
  now : s.now ≤ t.now

theorem Ground.refl (s : State) : Ground s s := ⟨rfl, rfl, rfl, rfl, Nat.le_refl _⟩

theorem Ground.trans {s t u : State} (h : Ground s t) (g : Ground t u) : Ground s u :=
  ⟨g.held.trans h.held, g.straps.trans h.straps, g.serial.trans h.serial, g.pending.trans h.pending,
    h.now.trans g.now⟩

theorem Ground.of {s t : State} (hj : t.sj = s.sj) (hp : t.pending = s.pending) (hn : t.now = s.now) :
    Ground s t := ⟨by rw [hj], by rw [hj], by rw [hj], hp, by rw [hn]⟩

theorem Closes.ground {s t : State} (h : Closes s t) : Ground s t :=
  ⟨by rw [h.sj], by rw [h.sj], by rw [h.sj], h.pending, by rw [h.now]⟩

theorem LineRest.ground {s t : State} (h : LineRest s t) : Ground s t := .of h.sj h.pending h.now

theorem IuRest.ground {s t : State} (h : IuRest s t) : Ground s t := .of h.sj h.pending h.now

theorem ground_reachTime (t : Time) (s : State) : Ground s (reachTime t s) :=
  ⟨rfl, rfl, rfl, rfl, Nat.le_max_left _ _⟩

theorem ground_raise (f : TimedFlag) (s : State) : Ground s (raiseFlag f s) := .of rfl rfl rfl

theorem ground_alarmEvent (s : State) : Ground s (alarmEvent s) := by
  unfold alarmEvent
  split
  · exact .of rfl rfl rfl
  · exact (iuRest_actOnAlarm s).ground
  · exact (iuRest_actOnAlarm s).ground
  · exact (iuRest_actOnAlarm s).ground
  · exact .refl s

theorem ground_noteInvalid (x : Option Int) (r : Reading) (s : State) :
    Ground s (noteInvalid x r s) := by
  unfold noteInvalid; split
  · exact ground_raise _ s
  · exact .refl s

theorem ground_heatAlarmStep (x : Option Int) (s : State) : Ground s (heatAlarmStep x s) := by
  unfold heatAlarmStep
  split
  · split
    · exact (Ground.of rfl rfl rfl : Ground s (setSu { s.su with alarm := .alarmed 0 } s)).trans
        (ground_alarmEvent _)
    · exact .refl s
  · exact .of rfl rfl rfl

theorem ground_setSu (u : Su) (s : State) : Ground s (setSu u s) := .of rfl rfl rfl

theorem ground_takeSample (x : Sensor) (v : Option Int) (s : State) : Ground s (takeSample x v s) := by
  cases x
  · exact (ground_setSu _ s).trans ((ground_noteInvalid _ _ _).trans (ground_heatAlarmStep _ _))
  · exact (ground_setSu _ s).trans (ground_noteInvalid _ _ _)
  · exact (ground_setSu _ s).trans (ground_noteInvalid _ _ _)

theorem ground_directionCommand (d : Direction) (o : Bool) (s : State) :
    Ground s (directionCommand d o s) := by
  unfold directionCommand
  split
  · exact .of rfl rfl rfl
  · split
    · exact ((iuRest_setRecords _ s).ground.trans (iuRest_triggerReannounce _ _).ground).trans
        (.of rfl rfl rfl)
    · exact .of rfl rfl rfl

theorem ground_standDown (s : State) : Ground s (standDown s) := by
  unfold standDown
  split
  · exact .of rfl rfl rfl
  · exact ((iuRest_endChain _ s).ground.trans (iuRest_placeEnd _ _).ground).trans (.of rfl rfl rfl)

theorem ground_noteCommand (s : State) : Ground s (noteCommand s) := .of rfl rfl rfl

theorem ground_commandEdge (act : State → State) (s : State) (h : ∀ s, Ground s (act s)) :
    Ground s (commandEdge act s) := by
  unfold commandEdge
  split <;> first | exact (ground_noteCommand s).trans (h _) | exact .refl s

theorem ground_maintReported (v : Bool) (s : State) : Ground s (maintReported v s) := by
  unfold maintReported
  split <;> first
    | exact .refl s
    | exact .of rfl rfl rfl
    | exact ⟨rfl, rfl, rfl, rfl, Nat.le_refl _⟩
    | (split <;> first | exact .refl s | exact .of rfl rfl rfl)

theorem ground_testConflictLamp (s : State) : Ground s (testConflictLamp s) := by
  unfold testConflictLamp; split
  · exact .of rfl rfl rfl
  · exact .refl s

theorem ground_inputActs (i : Input) (s : State) : Ground s (inputActs i s) := by
  unfold inputActs
  split
  · exact ground_alarmEvent s
  · exact ground_commandEdge _ s (ground_directionCommand _ _)
  · exact ground_commandEdge _ s (ground_directionCommand _ _)
  · exact ground_commandEdge _ s ground_standDown
  · exact ground_maintReported _ s
  · exact ground_testConflictLamp s
  · exact ground_testConflictLamp s
  · exact .refl s
  · exact .refl s

theorem ground_writeDemand (g : Governing) (d : Demand) (s : State) : Ground s (writeDemand g d s) :=
  .of rfl rfl rfl

theorem ground_paceUpdate (s : State) : Ground s (paceUpdate s) := by
  unfold paceUpdate
  split <;> exact .of rfl rfl rfl

theorem ground_considerDemand (p : Nat) (st : StatusPart) (s : State) :
    Ground s (considerDemand p st s) := by
  unfold considerDemand
  split
  · split
    · split
      · exact .of rfl rfl rfl
      · split
        · exact .of rfl rfl rfl
        · exact .refl s
    · exact .refl s
  · exact .refl s

theorem ground_duplicateTest (x : BitVec 32) (s : State) : Ground s (duplicateTest x s) := by
  unfold duplicateTest
  split
  · exact .refl s
  · split
    · exact ⟨rfl, rfl, rfl, rfl, Nat.le_refl _⟩
    · exact ground_raise _ s

theorem ground_receiveStatus (p : Nat) (b : Octets) (s : State) : Ground s (receiveStatus p b s) := by
  unfold receiveStatus
  split
  · split
    · exact ground_duplicateTest _ s
    · exact ground_raise _ s
  · split
    · exact ground_raise _ s
    · exact ((Ground.of rfl rfl rfl : Ground s (storeStatus p _ s)).trans
        (iuRest_takeStatus _ _).ground).trans (ground_considerDemand _ _ _)

theorem ground_receiveIncident (b : Octets) (s : State) : Ground s (receiveIncident b s) := by
  unfold receiveIncident
  split
  · exact ground_raise _ s
  · exact ((iuRest_catchUp _ s).trans (iuRest_receiveActive _ _ _)).ground
  · exact (((iuRest_catchUp _ s).trans (iuRest_catchUp _ _)).trans
      (iuRest_receiveAbsorbed _ _ _ _)).ground
  · exact ((iuRest_catchUp _ s).trans (iuRest_receiveEnd _ _)).ground

theorem ground_receiveEnding (b : Octets) (s : State) : Ground s (receiveEnding b s) := by
  unfold receiveEnding
  split
  · exact ground_raise _ s
  · exact ((iuRest_catchUp _ s).trans (iuRest_receiveEnd _ _)).ground

theorem ground_receiveClaim (p : Nat) (b : Octets) (s : State) : Ground s (receiveClaim p b s) := by
  unfold receiveClaim
  split
  · split
    · exact ground_raise _ s
    · unfold applyClaim
      dsimp only
      split
      · split <;> exact .of rfl rfl rfl
      · exact .of rfl rfl rfl
  · exact .refl s

theorem ground_receiveClaimEnd (p : Nat) (b : Octets) (s : State) :
    Ground s (receiveClaimEnd p b s) := by
  unfold receiveClaimEnd
  split
  · split
    · exact ground_raise _ s
    · exact .of rfl rfl rfl
  · exact .refl s

theorem ground_handOff (f : Octets) (s : State) : Ground s (handOff f s) := by
  unfold handOff
  split
  · exact ground_receiveStatus _ _ s
  · exact ground_receiveIncident _ s
  · exact ground_receiveEnding _ s
  · exact ground_receiveClaim _ _ s
  · exact ground_receiveClaimEnd _ _ s
  · exact ground_receiveClaimEnd _ _ s
  · exact .refl s

theorem ground_dispatch (f : Octets) (s : State) : Ground s (dispatch f s) := by
  have h : Ground s (if frameSource f = s.station then s else refreshPeer (frameSource f) s) := by
    split
    · exact .refl s
    · exact .of rfl rfl rfl
  unfold dispatch
  split
  · exact .refl s
  · split
    · exact ground_raise _ s
    · split
      · exact ground_raise _ s
      · dsimp only
        split
        · exact h.trans (ground_handOff _ _)
        · exact h.trans (ground_raise _ _)

theorem ground_endDefer (id : Id) (s : State) : Ground s (endDefer id s) := by
  unfold endDefer
  split
  · exact .of rfl rfl rfl
  · split
    · unfold waitRate; split
      · exact .refl s
      · exact .of rfl rfl rfl
    · exact (Ground.of rfl rfl rfl : Ground s (dropReannounce id s)).trans
        (iuRest_placeIncident _ _).ground

theorem ground_settle (c : Claim) (s : State) : Ground s (settle c s) := by
  unfold settle
  split
  · exact .of rfl rfl rfl
  · exact (lineRest_withdrawClaim c s).ground

theorem lineRest_renewClaim (c : Claim) (s : State) : LineRest s (renewClaim c s) :=
  (lineRest_setOwn _ s).trans (lineRest_place _ _)

theorem ground_placeStatus (s : State) : Ground s (placeStatus s) := (closes_placeStatus s).ground

theorem ground_endSpacing (s : State) : Ground s (endSpacing s) := by
  unfold endSpacing
  dsimp only
  split
  · exact (Ground.of rfl rfl rfl : Ground s { s with ba := { s.ba with spacingDue := none } }).trans
      (ground_placeStatus _)
  · exact .of rfl rfl rfl

theorem ground_discardAssembly (s : State) : Ground s (discardAssembly s) := .of rfl rfl rfl

theorem ground_startSend (s : State) : Ground s (startSend s) := by
  unfold startSend
  split
  · exact .refl s
  · dsimp only
    split <;> exact .of rfl rfl rfl

theorem ground_claimSent (b : Body) (s : State) : Ground s (claimSent b s) := by
  unfold claimSent
  split
  · split
    · exact .of rfl rfl rfl
    · exact .refl s
  · exact .refl s

theorem ground_setTx (q : List TxFrame) (s : State) : Ground s (setTx q s) := .of rfl rfl rfl

theorem ground_returnFrame (f : TxFrame) (s : State) : Ground s (returnFrame f s) := by
  unfold returnFrame
  split
  · exact (lineRest_refuseFrame _ s).ground
  · exact ground_setTx _ s

theorem ground_collided (f : TxFrame) (s : State) : Ground s (collided f s) := by
  unfold collided
  split
  · exact ground_raise _ s
  · split
    · exact .refl s
    · split
      · exact ground_setTx _ s
      · split
        · split
          · exact ground_setTx _ s
          · exact ground_returnFrame _ s
        · exact ground_returnFrame _ s

theorem ground_arriveFrame (f : Octets) (s : State) : Ground s (arriveFrame f s) := by
  unfold arriveFrame
  dsimp only
  split
  · exact .of rfl rfl rfl
  · exact (Ground.of rfl rfl rfl : Ground s { s with li := { s.li with assembly := [] } }).trans
      (ground_raise _ _)

theorem ground_characterRead (s : State) : Ground s (characterRead s) :=
  ⟨rfl, rfl, rfl, rfl, Nat.le_add_right _ _⟩

theorem ground_takeCharacter (o : Octet) (b : Bool) (s : State) : Ground s (takeCharacter o b s) := by
  have h := ground_characterRead s
  unfold takeCharacter
  dsimp only
  split
  · exact h
  · exact h.trans (.of rfl rfl rfl)
  · exact h.trans (ground_arriveFrame _ _)
  · exact h.trans (ground_discardAssembly _)

theorem ground_lampExpired (l : Lamp) (s : State) : Ground s (lampExpired l s) := by
  cases l
  · exact .of rfl rfl rfl
  · exact .of rfl rfl rfl
  · exact (Ground.of rfl rfl rfl : Ground s
      { s with no := { s.no with conflict := ⟨s.no.conflict.lit, none⟩ } }).trans
      (ground_testConflictLamp _)

/-! ## Every event -/

theorem ground_timed {due : Option Time} {body : State → State} {s x : State}
    (h : timed due body s = some x) (hb : ∀ s, Ground s (body s)) : Ground s x := by
  cases due with
  | none => cases h
  | some t => cases h; exact (ground_reachTime t s).trans (hb _)

theorem ground_whenReady {ready : Bool} {body : State → State} {s x : State}
    (h : whenReady ready body s = some x) (hb : ∀ s, Ground s (body s)) : Ground s x := by
  cases ready with
  | false => cases h
  | true => cases h; exact hb _

theorem ground_characterEffect {ready : Bool} {o : Octet} {stop : Bool} {s x : State}
    (h : characterEffect ready o stop s = some x) : Ground s x := by
  unfold characterEffect at h
  split at h
  · exact ground_timed h ground_startSend
  · exact ground_whenReady h (ground_takeCharacter _ _)

theorem ground_taken {k : FrameKind} {s x : State} (h : taken k s = some x) : Ground s x := by
  unfold taken at h
  split at h
  · cases h
  · split at h
    · rename_i fs _ _
      cases h
      exact (Ground.of rfl rfl rfl : Ground s (setRx fs s)).trans (ground_dispatch _ _)
    · cases h

theorem ground_effect {i : Instr} {s x : State} (h : effect i s = some x) : Ground s x := by
  cases i <;> simp only [effect] at h
  case sensorRound => exact ground_timed h (fun _ => .of rfl rfl rfl)
  case sensorSample a b c =>
    unfold sampleEffect at h
    split at h
    · cases h
    · exact ground_timed h (fun s => (Ground.of rfl rfl rfl :
        Ground s (beginTransaction _ s)).trans (ground_takeSample _ _ _))
  case debounceExpiry i =>
    exact ground_timed h (fun s => (ground_setSu _ s).trans (ground_inputActs _ _))
  case maintenanceEntry =>
    exact ground_whenReady h (fun s => ⟨rfl, rfl, rfl, rfl, Nat.le_refl _⟩)
  case slotInputFilterExpiry k i => exact ground_timed h (fun _ => .of rfl rfl rfl)
  case slotInputInitialLevels => exact ground_timed h (fun _ => .of rfl rfl rfl)
  case startTimerExpiry k => exact ground_timed h (fun _ => .of rfl rfl rfl)
  case coastTimerExpiry k => exact ground_timed h (fun _ => .of rfl rfl rfl)
  case tripHoldExpiry k => exact ground_timed h (fun _ => .of rfl rfl rfl)
  case paceUpdate => exact ground_timed h ground_paceUpdate
  case changeTimerExpiry => exact ground_timed h (fun _ => .of rfl rfl rfl)
  case yieldHoldExpiry id => exact ground_timed h (fun _ => .of rfl rfl rfl)
  case incidentReceived => exact ground_taken h
  case endReceived => exact ground_taken h
  case statusReceived => exact ground_taken h
  case claimReceived => exact ground_taken h
  case withdrawReceived => exact ground_taken h
  case releaseReceived => exact ground_taken h
  case invalidFrameTaken => exact ground_taken h
  case reannounce id => exact ground_timed h (ground_endDefer id)
  case endRepeat id =>
    exact ground_timed h (fun s => (Ground.of rfl rfl rfl : Ground s
      { s with iu := { s.iu with endRepeats := dropFirst id s.iu.endRepeats } }).trans
      (iuRest_placeEnd _ _).ground)
  case endingTimerExpiry id => exact ground_timed h (fun _ => .of rfl rfl rfl)
  case peerSilent p =>
    exact ground_timed h (fun s => (Ground.of rfl rfl rfl : Ground s (silencePeer p s)).trans
      (iuRest_grown _).ground)
  case claimPlacement => exact ground_whenReady h (fun s => (lineRest_testClaim s).ground)
  case claimSpacingExpiry => exact ground_timed h (fun _ => .of rfl rfl rfl)
  case settleExpiry =>
    unfold settleEffect at h
    split at h
    · exact ground_timed h (ground_settle _)
    · cases h
    · cases h
  case claimRenewal =>
    unfold renewEffect at h
    split at h
    · exact ground_timed h (fun s => (lineRest_renewClaim _ s).ground)
    · cases h
    · cases h
  case claimEntryExpiry p => exact ground_timed h (fun _ => .of rfl rfl rfl)
  case presenceTimerExpiry => exact ground_timed h ground_placeStatus
  case statusSpacingExpiry => exact ground_timed h ground_endSpacing
  case healthFlagExpiry f => exact ground_timed h (fun _ => .of rfl rfl rfl)
  case sendStart => exact ground_timed h ground_startSend
  case sendSuccess =>
    unfold successEffect at h
    split at h
    · cases h
    · exact ground_timed h (fun s => (Ground.of rfl rfl rfl : Ground s (endAttempt s)).trans
        (ground_claimSent _ _))
  case collision k b =>
    unfold collisionEffect at h
    split at h
    · cases h
    · split at h
      · cases h
      · split at h
        · cases h
        · exact ground_timed h (fun s => (Ground.of rfl rfl rfl : Ground s (endAttempt s)).trans
            (ground_collided _ _))
  case receiverSync => exact ground_timed h (fun _ => .of rfl rfl rfl)
  case frameArrival o => exact ground_characterEffect h
  case rxFrameDiscard o b => exact ground_characterEffect h
  case rxTruncation => exact ground_timed h ground_discardAssembly
  case cmdLampExpiry l => exact ground_timed h (ground_lampExpired l)
  case slotFltPhase k => exact ground_timed h (fun _ => .of rfl rfl rfl)
  case characterReceived o b => exact ground_characterEffect h
  all_goals cases h

theorem ground_unhold (s : State) : Ground s (if s.iu.heldAlarm then
    actOnAlarm { s with iu := { s.iu with heldAlarm := false } } else s) := by
  split
  · refine Ground.trans ?_ (iuRest_actOnAlarm _).ground
    exact .of rfl rfl rfl
  · exact .refl s

theorem ground_leaveJoining (s : State) : Ground s (leaveJoining s) := by
  refine Ground.trans ?_ (ground_unhold _)
  exact ⟨rfl, rfl, rfl, rfl, Nat.le_refl _⟩

/-- The end of JOINING, where the join timer runs, is what closes its own effect. -/
theorem join_next {s u : State} (h : exec .joinTimerExpiry s = .next u) :
    (s.sj.joinDue = none ∧ u = s) ∨ ∃ t, s.sj.joinDue = some t ∧
      u = closeEvent (placeEarly (follow s (leaveJoining (reachTime t s))))
        (maintAtJoin (placeEarly (follow s (leaveJoining (reachTime t s))))) := by
  simp only [exec, execJoinTimerExpiry] at h
  split at h
  · rename_i hd; cases h; exact .inl ⟨hd, rfl⟩
  · rename_i t hd; cases h; exact .inr ⟨t, hd, rfl⟩

/-- No event touches the reset, the straps, the serial and the queue, and none takes the clock back. -/
theorem ground_exec {i : Instr} {s u : State} (hi : isPlain i = false) (h : exec i s = .next u) :
    Ground s u := by
  by_cases hj : i = .joinTimerExpiry
  · subst hj
    rcases join_next h with ⟨-, rfl⟩ | ⟨t, -, rfl⟩
    · exact .refl _
    · have g : Ground s (placeEarly (follow s (leaveJoining (reachTime t s)))) :=
        (ground_reachTime t s).trans ((ground_leaveJoining _).trans ((closes_follow _ _).ground.trans
          (closes_placeEarly _).ground))
      refine g.trans ?_
      refine Ground.trans ?_ (closes_closeEvent _ _).ground
      unfold maintAtJoin
      split
      · exact .of rfl rfl rfl
      · exact .refl _
  · rcases exec_effect_next hi hj h with ⟨-, rfl⟩ | ⟨x, hx, rfl⟩
    · exact .refl _
    · exact (ground_effect hx).trans (closes_closeEvent _ _).ground

end Sys2Proof.Machine
end

