-- ==== Sys2Proof/Laws/Sensing.lean ====
section
/-! SUPPORT. The outputs read off the state: the sensor link (R123), with what a polling round leaves, what an
octet of sampled bits holds, when the select is asserted and the clock high, and that a transaction in progress
is among the events the part waits for; and the CMD_CONFLICT lamp (R164). -/

namespace Sys2Proof.Machine

@[simp] theorem nextRound_roundDue (s : State) :
    (nextRound s).su.roundDue = s.su.roundDue.map (· + roundTime) := rfl
@[simp] theorem nextRound_transaction (s : State) :
    (nextRound s).su.transaction = some ⟨.heat, s.now + transactionTime⟩ := rfl

/-- A later round starts the heat sensor's transaction now, and the next round is due 1 s after this one was;
it changes nothing else (R123). -/
theorem nextRound_eq (s : State) : nextRound s = { s with su := { s.su with
    roundDue := s.su.roundDue.map (· + roundTime)
    transaction := some ⟨.heat, s.now + transactionTime⟩ } } := rfl

/-- The CMD_CONFLICT output shows the held conflict once a command has been taken (R164, log 34). -/
theorem conflictOut_iff (s : State) :
    conflictOut s = true ↔ s.no.commanded = true ∧ s.no.conflict.lit = true := by
  unfold conflictOut
  rw [Bool.and_eq_true]

/-- The first bit sampled is the most significant (R123). -/
theorem octetOfBits_bit (bit : Nat → Bool) {n : Nat} (h : n < 8) :
    (octetOfBits bit).getLsbD (7 - n) = bit n := by
  have key : ∀ a b c d e f g i : Bool, ∀ n, n < 8 →
      (octetOfBits fun k => [a, b, c, d, e, f, g, i].getD k false).getLsbD (7 - n) =
        [a, b, c, d, e, f, g, i].getD n false := by decide +kernel
  have same : octetOfBits bit = octetOfBits fun k =>
      [bit 0, bit 1, bit 2, bit 3, bit 4, bit 5, bit 6, bit 7].getD k false := rfl
  rw [same, key _ _ _ _ _ _ _ _ n h]
  interval_cases n <;> rfl

theorem selectOut_of_transaction {s : State} {t : Transaction} (h : s.su.transaction = some t) :
    selectOut s = if s.now < t.ends then some t.sensor else none := by simp [selectOut, h]

/-- SNS_CLK is high in the first half of each of a transaction's 24 periods (R123). -/
theorem sensorClock_iff {s : State} {t : Transaction} (h : s.su.transaction = some t) :
    sensorClock s = true ↔ s.now < t.ends ∧ t.risingEdge 0 ≤ s.now ∧
      (s.now - t.risingEdge 0) % 10 < 5 := by
  unfold sensorClock
  rw [h]
  rw [Bool.and_eq_true, decide_eq_true_eq, decide_eq_true_eq]
  exact ⟨fun x => ⟨x.1.2, x.1.1, x.2⟩, fun x => ⟨⟨x.2.1, x.1⟩, x.2.2⟩⟩

/-- A transaction in progress ends with its sample, among the events the part waits for (R123). -/
theorem sample_mem_allDues {s : State} {t : Transaction} (h : s.su.transaction = some t) :
    ⟨t.ends, transactionSample Config.sensorLine t⟩ ∈ allDues s := by
  simp [allDues, nicheDues, sampleDues, h]

/-- A frame being sent ends with its success, among the events the part waits for (R155, log 41). -/
theorem success_mem_allDues {s : State} {x : Sending} (h : s.li.sending = some x) :
    ⟨sentBy s x (sendingOctets s x).length, .sendSuccess⟩ ∈ allDues s := by
  simp [allDues, lineDues, sentDues, h]

end Sys2Proof.Machine
end

