-- ==== Sys2Proof/WellFormed.lean ====
section
/-! DEFINITION. What makes a command well formed: its station numbers and incident ids lie in the
ranges the handbook gives them.  Every other operand is a closed type or a bit vector, every value
of which is meaningful. -/

namespace Sys2Proof

/-- A station index, 1 to 120 (R165). -/
def stationIndexOk (p : Nat) : Bool := 1 ≤ p && p ≤ 120

/-- An incident id, origin 1 to 120 (R1); its seq is 0 to 15 by its type. -/
def Id.ok (id : Id) : Bool := stationIndexOk id.origin

/-- The longest frame the part sends is 43 octets (R138), so a colliding character is one of 43. -/
def characterIndexOk (k : Nat) : Bool := k < 43

/-- A command whose operands lie in the handbook's ranges. -/
def Instr.wellFormed : Instr → Bool
  | .yieldHoldExpiry id => id.ok
  | .reannounce id => id.ok
  | .endRepeat id => id.ok
  | .endingTimerExpiry id => id.ok
  | .peerSilent p => stationIndexOk p
  | .claimEntryExpiry p => stationIndexOk p
  | .collision k _ => characterIndexOk k
  | .powerOnReset | .externalReset | .resetRelease _ | .joinTimerExpiry | .sensorRound
  | .sensorSample _ _ _ | .inputLevelChange _ _ | .debounceExpiry _ | .maintenanceEntry
  | .slotInputChange _ _ _ | .slotInputFilterExpiry _ _ | .slotInputInitialLevels
  | .startTimerExpiry _ | .coastTimerExpiry _ | .tripHoldExpiry _ | .paceUpdate
  | .changeTimerExpiry | .incidentReceived | .endReceived | .statusReceived | .claimReceived
  | .withdrawReceived | .releaseReceived | .invalidFrameTaken | .claimPlacement
  | .claimSpacingExpiry | .settleExpiry | .claimRenewal | .presenceTimerExpiry
  | .statusSpacingExpiry | .healthFlagExpiry _ | .sendStart | .sendSuccess | .receiverSync
  | .frameArrival _ | .rxFrameDiscard _ _ | .rxTruncation | .cmdLampExpiry _ | .slotFltPhase _
  | .characterReceived _ _ => true

end Sys2Proof
end

