-- ==== Sys2Proof/Tests/Slice0.lean ====
section
/-! SUPPORT. Tests: the well-formedness checks, the handbook's own worked figures, one small step of each
command, and for each statement with hypotheses a state that meets them.  Every expected value is the
handbook's, or reckoned by hand from its rule; the source stands in each test's comment.
The theorems are checked one after another (Elab.async off), which keeps the check small. -/

namespace Sys2Proof.Tests

set_option Elab.async false

open Sys2Proof Sys2Proof.Machine

/-! ## Small states -/

/-- The straps of the bore of chapter 11: COUNT 60, SPACING 250 m, FANS 2, SECTION 3, VTARGET code 1,
RATE code 2. -/
def strapsOf (station : Nat) : BitVec 28 :=
  BitVec.ofNat 28
    (station + 128 * 60 + 16384 * 6 + 131072 * 2 + 1048576 * 3 + 16777216 * 1 + 67108864 * 2)

/-- A slot in a state, its target OFF, its inputs not asserted. -/
def slotIn (st : SlotState) : Slot := { Slot.unfitted with st := st }

/-- A station of that bore in QUIET at 10 s: FS1 and FS2 STOPPED. -/
def ready (station : Nat) : State :=
  { State.reset with
    now := 10000000
    sj := ⟨false, strapsOf station, 0x00C41E92#32, .quiet, none⟩
    fs := ⟨⟨slotIn .stopped, slotIn .stopped, slotIn .absent, slotIn .absent⟩, false, none⟩ }

/-- The incident of the worked figures, 22/0. -/
def id22 : Id := ⟨22, 0#4⟩

/-- Its content (chapter 11). -/
def fire : Content := ⟨22, 22, .towardA, 0, none⟩

/-- A station that holds 22/0 ACTIVE with this demand part, in INCIDENT. -/
def burning (station : Nat) (d : Option Demand) : State :=
  let s := ready station
  { s with
    sj := { s.sj with mode := .incident }
    iu := { s.iu with records := [⟨id22, .active fire d⟩] } }

/-- A LIVE peer heard at 9 s, in INCIDENT. -/
def seen (p fans runA : Nat) (temp vel : Int) : Peer :=
  ⟨p, .live 9000000, some ⟨⟨.incident, fans, runA, 0, some temp, some vel⟩, none, []⟩, false⟩

/-- The stations 23 to 27 of the figures after R36, seen from the one at `own`, whose own values are
`f` available fans, all of them running, a temperature and a velocity. -/
def planning (own : Nat) (d : Nat) (slot1 slot2 : SlotState) (temp vel : Int) (peers : List Peer) :
    State :=
  let s := burning own (some ⟨d, 4#8, 23, none⟩)
  { s with
    su := { s.su with heat := ⟨some temp, 0⟩, velocity := ⟨some vel, 0⟩ }
    fs := { s.fs with slots := ⟨slotIn slot1, slotIn slot2, slotIn .absent, slotIn .absent⟩ }
    pt := peers }

/-- Station 23 at 25 s of the pace table after R46: 20 q run, the readings are -12, -10 and -11. -/
def pace23 : State :=
  let s := planning 23 20 (.running .towardA) (.running .towardA) 45 (-12)
    [seen 24 2 2 30 (-10), seen 25 1 1 28 (-11), seen 26 2 0 27 (-10), seen 27 2 0 27 (-10)]
  { s with tp := { s.tp with pace := .pace, updateDue := some 10000000, classRank := some (0, 0),
                             changeDue := some 20000000 } }

/-- The state a command leaves. -/
def after (c : Instr) (s : State) : State :=
  match exec c s with
  | .next t => t
  | .fault _ => s
  | .refused _ => s

/-- `s` with one slot replaced. -/
def withSlot (k : SlotNo) (sl : Slot) (s : State) : State := setSlot k sl s

/-- `s` with this frame at the head of the receive queue. -/
def receiving (f : Octets) (s : State) : State := { s with li := { s.li with rx := [f] } }

/-- A STATUS of a station in INCIDENT that plans for 22/0 with this demand and serial. -/
def statusOf (serial : BitVec 32) (pace : Bool) (demand : Nat) (n : BitVec 8) : Body :=
  .status serial
    ⟨⟨.incident, 2, 2, 0, some 45, some (-12)⟩, some ⟨id22, digest id22 fire, demand, n, pace⟩,
      [⟨id22, .active⟩]⟩ 0#8

/-- The check of R124. -/
def sampleOf (high low : Octet) : Instr := .sensorSample high low (high + low + 0x5A#8)

/-! ## Well-formedness: each check refuses an ill-formed command -/

theorem test_yield_hold_origin_0_is_ill_formed :
    (Instr.yieldHoldExpiry ⟨0, 0#4⟩).wellFormed = false := by decide
theorem test_reannounce_origin_121_is_ill_formed :
    (Instr.reannounce ⟨121, 0#4⟩).wellFormed = false := by decide
theorem test_end_repeat_origin_0_is_ill_formed :
    (Instr.endRepeat ⟨0, 15#4⟩).wellFormed = false := by decide
theorem test_ending_timer_origin_121_is_ill_formed :
    (Instr.endingTimerExpiry ⟨121, 3#4⟩).wellFormed = false := by decide
theorem test_peer_0_is_ill_formed : (Instr.peerSilent 0).wellFormed = false := by decide
theorem test_claim_entry_of_station_121_is_ill_formed :
    (Instr.claimEntryExpiry 121).wellFormed = false := by decide
theorem test_character_43_of_a_frame_is_ill_formed :
    (Instr.collision 43 0#10).wellFormed = false := by decide
theorem test_the_bounds_are_well_formed :
    (Instr.reannounce ⟨120, 15#4⟩).wellFormed = true ∧ (Instr.peerSilent 1).wellFormed = true ∧
      (Instr.collision 42 0#10).wellFormed = true := by decide

/-- No row of the table gives bits, so no word spells a command and the queue stands. -/
theorem test_no_word_spells_a_command :
    decodeTableWord 8 0xFF = none ∧ (ready 23).withFetchWord 8 0xFF = ready 23 := by decide +kernel

/-! ## The handbook's worked figures -/

/-- The check value of the CRC of R139, that of "123456789". -/
theorem test_crc_check_value :
    crc [0x31#8, 0x32#8, 0x33#8, 0x34#8, 0x35#8, 0x36#8, 0x37#8, 0x38#8, 0x39#8] = 0x29B1#16 := by
  decide +kernel

/-- Chapter 7, "one STATUS from station 23": its 26 octets but for the digest and the CRC. -/
theorem test_status_of_station_23 :
    let f := frameOctets 23 (statusOf 0x00C41E92#32 true 29 5#8)
    f.take 18 = [0x11#8, 0x17#8, 0x17#8, 0x00#8, 0xC4#8, 0x1E#8, 0x92#8, 0x02#8, 0x02#8, 0x20#8,
      0x00#8, 0x2D#8, 0xFF#8, 0xF4#8, 0x00#8, 0xC1#8, 0x16#8, 0x00#8] ∧
    (f.drop 20).take 6 = [0x00#8, 0x1D#8, 0x05#8, 0x16#8, 0x00#8, 0x01#8] ∧ f.length = 28 := by
  decide +kernel

/-- R124: 85 °C is 0x00, 0x55, 0xAF, a velocity of -12 is 0xFF, 0xF4, 0x4D, and a dead line of ones or
of zeros is a missing sample. -/
theorem test_sensor_octets :
    sampleValue .heat 0x00#8 0x55#8 0xAF#8 = some 85 ∧
    sampleValue .velocity 0xFF#8 0xF4#8 0x4D#8 = some (-12) ∧
    sampleValue .velocity 0xFF#8 0xFF#8 0xFF#8 = none ∧
    sampleValue .opacity 0x00#8 0x00#8 0x00#8 = none ∧
    sampleValue .heat 0x80#8 0x00#8 0xDA#8 = none ∧
    sampleValue .heat 0x03#8 0xE9#8 0x46#8 = none := by decide +kernel

/-- The table of R35: the nearest eligible station on each side at 250 m is 1 and 2 stations away. -/
theorem test_exclusion_distances :
    farEnough 250 fire 23 = true ∧ farEnough 250 fire 21 = false ∧ farEnough 250 fire 20 = true ∧
    farEnough 60 fire 23 = false ∧ farEnough 60 fire 24 = true ∧ farEnough 60 fire 16 = false ∧
    farEnough 60 fire 15 = true ∧ farEnough 80 fire 17 = true ∧ farEnough 80 fire 18 = false := by
  decide

/-- The order for 22/0 after R38: station 23 has rank 0, station 27 rank 4. -/
theorem test_order_for_22_0 : preferenceOrder pace23 fire = [23, 24, 25, 26, 27] := by decide +kernel

/-- The shares after R53 at D = 29: station 26 runs 2 fans and station 27 runs 1. -/
theorem test_shares_at_29 :
    let peers := [seen 23 2 2 45 0, seen 24 2 2 30 0, seen 25 1 1 28 0, seen 26 2 0 27 0]
    let s26 := planning 26 29 .stopped .stopped 27 0 (peers.take 3)
    let s27 := planning 27 29 .stopped .stopped 27 0 peers
    (recompute s26).tp.targets = ⟨.run .towardA, .run .towardA, .off, .off⟩ ∧
    (recompute s27).tp.targets = ⟨.run .towardA, .off, .off, .off⟩ ∧
    (recompute s27).tp.classRank = some (0, 4) := by decide +kernel

/-- After R55, station 25 at D = 20: FS1 is LOCKED_OUT, so FS2 takes the one target. -/
theorem test_station_25_turns_its_second_fan :
    let s := planning 25 20 (.lockedOut .startFail) .stopped 28 0 [seen 23 2 2 45 0, seen 24 2 2 30 0]
    (recompute s).tp.targets = ⟨.off, .run .towardA, .off, .off⟩ ∧
    ((recompute s).slot .fs2).st = .startWait .towardA := by decide +kernel

/-- After R55, station 40 when its push turns: FS3 STOPPED comes before FS1 and FS2, which run the
other way. -/
theorem test_slot_order_when_the_push_turns :
    let s := { ready 40 with fs := ⟨⟨slotIn (.running .towardB), slotIn (.running .towardB),
      slotIn .stopped, slotIn .absent⟩, false, none⟩ }
    slotOrder s .towardA = [.fs3, .fs1, .fs2] := by decide +kernel

/-- The steps of R44 and of its figures: an error of 19 gives 9, of 4 gives 2, of 1 gives 0. -/
theorem test_pace_steps :
    paceStep 19 = 9 ∧ paceStep 4 = 2 ∧ paceStep 1 = 0 ∧ paceStep (-2) = 0 ∧ paceStep (-3) = -1 ∧
    paceStep 100 = 12 ∧ paceStep (-100) = -8 := by decide

/-- Chapter 8, "two stations that share a defer": back-offs of 180 and 220 bit times. -/
theorem test_back_offs :
    let back (serial : BitVec 32) (p : Nat) : Nat :=
      deferBits { ready p with sj := { (ready p).sj with serial := serial } } 1
    deferBits (ready 41) 0 = 4 ∧ deferBits (ready 49) 0 = 4 ∧
    back 0x07#32 41 = 180 ∧ back 0xF9#32 49 = 220 := by decide +kernel

/-- R4: seq 0 is older than 1, 15 than 0, and at distance 8 the numerically less one is the older. -/
theorem test_keys :
    keyLt ⟨22, 0#4⟩ ⟨22, 1#4⟩ = true ∧ keyLt ⟨22, 15#4⟩ ⟨22, 0#4⟩ = true ∧
    keyLt ⟨22, 8#4⟩ ⟨22, 0#4⟩ = false ∧ keyLt ⟨22, 0#4⟩ ⟨22, 8#4⟩ = true ∧
    keyLt ⟨21, 9#4⟩ ⟨22, 0#4⟩ = true := by decide

/-! ## The states the commands are tried on, which meet the statements' hypotheses too -/

/-- A slot locked out at its second fault. -/
def worn : State :=
  withSlot .fs1 { slotIn (.lockedOut .trip) with faults := 2 } (ready 23)

/-- Station 22 at the end of JOINING, as in the sequence of 10.3. -/
def joining22 (alarm : Bool) : State :=
  let s := ready 22
  { s with
    sj := { s.sj with mode := .joining, joinDue := some 10000000 }
    iu := { s.iu with counter := 1#4, heldAlarm := alarm } }

/-- A polling round is due. -/
def roundDue : State :=
  let s := ready 23
  { s with su := { s.su with roundDue := some 10000000 } }

/-- A transaction of this sensor ends. -/
def polled (x : Sensor) (s : State) : State :=
  { s with su := { s.su with transaction := some ⟨x, 10000000⟩ } }

/-- Station 22 before round 10 of the sequence of 6.3: 44 °C, and 31 °C ten seconds before the next. -/
def warming22 : State :=
  let s := polled .heat (ready 22)
  { s with su := { s.su with history :=
      [some 44, some 42, some 40, some 39, some 38, some 36, some 35, some 34, some 33, some 31,
       some 30] } }

/-- A sample of 70 °C has just been taken. -/
def hot22 : State :=
  let s := polled .heat (ready 22)
  { s with su := { s.su with history := some 70 :: List.replicate 10 (some 65) } }

/-- The debounce of an input ends at 10 s. -/
def pressed (i : Input) (pin : Bool) (s : State) : State :=
  { s with su := s.su.setInput i ⟨pin, !pin, some 10000000⟩ }

/-- MAINT is released in MAINTENANCE: FS1 runs toward B in LOCAL, FS2 is locked out. -/
def visited : State :=
  let s := ready 23
  pressed .maint false { s with
    sj := { s.sj with mode := .maintenance }
    fs := { s.fs with slots := ⟨{ slotIn .localControl with
        runFb := ⟨true, true, true, none⟩, dirFb := ⟨true, true, true, none⟩ },
      { slotIn (.lockedOut .startFail) with faults := 2 }, slotIn .absent, slotIn .absent⟩ } }

/-- A maintenance entry that can be made: FS1 runs. -/
def entering : State :=
  let s := withSlot .fs1 (slotIn (.running .towardA)) (ready 23)
  { s with fs := { s.fs with maintPending := true } }

/-- The filter of a feedback input of FS1 ends at 10 s, the slot being in `st` with target `t`. -/
def filtered (i : SlotInput) (pin : Bool) (st : SlotState) (t : Target) (s : State) : State :=
  withSlot .fs1 ({ slotIn st with target := t }.setInput i ⟨pin, !pin, false, some 10000000⟩) s

/-- The own claim of station 23 in chapter 11, number 5, for FS1. -/
def ownClaim : Claim := ⟨.fs1, 5#8, ⟨0, 0, 0x00C41E92#32⟩⟩

/-- Station 23 starts FS1 on its grant. -/
def starting23 : State :=
  let s := filtered .runFb true (.starting .towardA 24000000) (.run .towardA) pace23
  { s with cu := { s.cu with own := .granted ownClaim none, counter := 6#8 } }

/-- Its start timer runs out at 10 s. -/
def failing23 : State :=
  withSlot .fs1 { slotIn (.starting .towardA 10000000) with target := .run .towardA, faults := 1 }
    starting23

/-- Station 23 with FS1 in START_WAIT and the conditions of R98 met. -/
def waiting23 : State :=
  withSlot .fs1 { slotIn (.startWait .towardA) with target := .run .towardA } pace23

/-- Its claim settles until 10 s, `v` being heard. -/
def settling23 (v : List ClaimEntry) : State :=
  { waiting23 with cu := ⟨6#8, .settling ownClaim (some 10000000), v, some 10500000⟩ }

/-- Its claim is placed and unsent. -/
def unsent23 : State :=
  { waiting23 with cu := ⟨6#8, .settling ownClaim none, [], some 10500000⟩ }

/-- A claim of station 24, heard at 9 s. -/
def entry24 (late : Bool) : ClaimEntry := ⟨24, ⟨.fs1, 2#8, ⟨0, 1, 0x24#32⟩⟩, 9000000, late⟩

/-- A claim of station 25 of equal class and rank and lower serial. -/
def entry25 (late : Bool) : ClaimEntry := ⟨25, ⟨.fs2, 0#8, ⟨0, 0, 0x25#32⟩⟩, 9000000, late⟩

/-- Station 23 hears the claim of station 24. -/
def hearing23 : State := { pace23 with cu := { pace23.cu with view := [entry24 false] } }

/-- A frame is being sent since 9.999 s. -/
def sending (b : Body) (s : State) : State :=
  { s with li := { s.li with sending := some ⟨⟨b, 0⟩, 9999000⟩ } }

/-- The receiver is synchronised and has assembled these octets, the last of them at 10 s. -/
def assembled (o : Octets) (s : State) : State :=
  { s with li := { s.li with synced := true, assembly := o, idleSince := 10000000 } }

/-- A record that ended, its ending timer at 10 s. -/
def ended22 : State :=
  let s := ready 23
  { s with iu := { s.iu with records := [⟨id22, .ended 0 10000000⟩] } }

/-- A re-announce of 22/0 due at 10 s. -/
def announcing : State :=
  let s := burning 23 none
  { s with iu := { s.iu with reannounce := [⟨id22, 10000000⟩] } }

/-- The second END of a stand-down due at 10 s. -/
def repeating : State :=
  { ended22 with iu := { ended22.iu with
      records := [⟨id22, .ended 0 69500000⟩], endRepeats := [⟨id22, 10000000⟩] } }

/-- Station 24 holds 22/0 and sees station 23 at 85 °C next to the span. -/
def besideHeat : State :=
  let s := burning 24 none
  { s with pt := [seen 23 2 0 85 0] }

/-! ## One step of each command -/

/-- R168: a power-on reset clears fault counts and lockouts. -/
theorem test_power_on_reset :
    let u := after .powerOnReset worn
    (u.slot .fs1).faults = 0 ∧ lockoutOf (u.slot .fs1) = none ∧ u.sj.held = true := by decide +kernel

/-- R168: an external reset keeps them. -/
theorem test_external_reset :
    let u := after .externalReset worn
    (u.slot .fs1).faults = 2 ∧ lockoutOf (u.slot .fs1) = some .trip ∧ u.sj.held = true := by
  decide +kernel

/-- R168, R87: JOINING for 6 s, the two fitted slots COAST 45 s and the others are ABSENT. -/
theorem test_reset_release :
    let u := after (.resetRelease (strapsOf 22)) State.reset
    u.sj.mode = .joining ∧ u.sj.joinDue = some 6000000 ∧ u.station = 22 ∧ u.spacing = 250 ∧
    (u.slot .fs2).st = .coasting 45000000 ∧ (u.slot .fs3).st = .absent := by decide +kernel

/-- R166: STATION above COUNT is CONFIG_FAULT. -/
theorem test_reset_release_with_bad_straps :
    let u := after (.resetRelease (strapsOf 61)) State.reset
    u.sj.mode = .configFault ∧ u.sj.joinDue = none ∧ (pinsOf u).health = true := by decide +kernel

/-- The sequence of 10.3: the held alarm declares 22/1 and the counter moves to 2. -/
theorem test_join_timer_expiry :
    let u := after .joinTimerExpiry (joining22 true)
    u.sj.mode = .incident ∧ u.iu.records = [⟨⟨22, 1#4⟩, .active fire none⟩] ∧ u.iu.counter = 2#4 := by
  decide +kernel

/-- R123: a round begun 160 µs late selects the heat sensor then, and the next is due 1 s after it was due. -/
theorem test_sensor_round :
    let u := after .sensorRound { roundDue with now := 10000160 }
    selectOut u = some .heat ∧ u.su.transaction = some ⟨.heat, 10000450⟩ ∧
    u.su.roundDue = some 11000000 := by decide +kernel

/-- R123: a transaction that ends at 10 s.  The select stands for 290 µs and is then released; SNS_CLK rises 50 µs
after the select and every 10 µs, and an octet comes most significant bit first. -/
theorem test_sensor_pins :
    let at_ (now : Time) : State := { polled .heat (ready 23) with now := now }
    ([9999710, 9999999, 10000000].map fun n => selectOut (at_ n)) = [some .heat, some .heat, none] ∧
    ([9999710, 9999759, 9999760, 9999764, 9999765, 9999770, 9999990, 10000000].map fun n =>
      sensorClock (at_ n)) = [false, false, true, true, false, true, true, false] ∧
    octetOfBits (fun n => n == 1 || n == 3 || n == 5 || n == 7) = 0x55#8 := by decide +kernel

/-- The sequence of 6.3, round 10: 47 °C against 31 °C trips the alarm, and station 22 declares 22/0. -/
theorem test_sensor_sample :
    let u := after (sampleOf 0x00#8 47#8) warming22
    u.su.alarm = .alarmed 0 ∧ u.iu.records = [⟨id22, .active fire none⟩] ∧ u.iu.counter = 1#4 := by
  decide +kernel

/-- R124: on an empty queue a transaction that has run out takes its sample, whatever SNS_DI shows. -/
theorem test_sensor_sample_is_due :
    (match dueCommand (polled .heat (assembled [] (ready 23))) with
      | some (.sensorSample _ _ _) => true
      | _ => false) = true := by decide +kernel

/-- R133. -/
theorem test_input_level_change :
    (after (.inputLevelChange .maint true) (ready 23)).su.maint = ⟨true, false, some 11000000⟩ := by
  decide +kernel

/-- R19: CMD_PUSH_B turns 22/0, at revision 1, commanded by 30; the only eligible station this one
knows, it enters PACE with the initial demand of R40. -/
theorem test_debounce_expiry :
    let u := after (.debounceExpiry .pushB) (pressed .pushB true (burning 30 none))
    u.iu.records = [⟨id22, .active ⟨22, 22, .towardB, 1, some 30⟩ (some ⟨20, 0#8, 30, none⟩)⟩] ∧
    u.no.acceptDue = some 12000000 := by decide +kernel

/-- R84: the running slot is LOCAL and its drive is released. -/
theorem test_maintenance_entry :
    let u := after .maintenanceEntry entering
    u.sj.mode = .maintenance ∧ (u.slot .fs1).st = .localControl ∧ driveOut u .fs1 = none := by
  decide +kernel

/-- R86: the motor that runs toward B is taken up RUNNING, the lockout is cleared and COASTS. -/
theorem test_maintenance_exit :
    let u := after (.debounceExpiry .maint) visited
    u.sj.mode = .quiet ∧ (u.slot .fs2).st = .coasting 55000000 ∧ (u.slot .fs2).faults = 0 ∧
    (u.slot .fs1).st = .coasting 55000000 := by decide +kernel

/-- R61. -/
theorem test_slot_input_change :
    ((after (.slotInputChange .fs1 .runFb true) (ready 23)).slot .fs1).runFb =
      ⟨true, false, false, some 10100000⟩ := by decide +kernel

/-- R68, R103: the start comes to run and RELEASE is placed. -/
theorem test_slot_input_filter_expiry :
    let u := after (.slotInputFilterExpiry .fs1 .runFb) starting23
    (u.slot .fs1).st = .running .towardA ∧ u.cu.own = .none ∧
    (u.li.tx.map TxFrame.body).take 1 = [.release 3 .fs1 5#8] := by decide +kernel

/-- R61, R76: TRIP_FB asserted at release trips the coasting slot, with no fault counted. -/
theorem test_slot_input_initial_levels :
    let s := withSlot .fs1 { slotIn (.coasting 45000000) with tripFb := ⟨true, false, true, none⟩ }
      { ready 23 with fs := { (ready 23).fs with initDue := some 10000000 } }
    let u := after .slotInputInitialLevels s
    (u.slot .fs1).st = .tripped (some 130000000) ∧ (u.slot .fs1).faults = 0 := by decide +kernel

/-- R69, R80: the second failed start locks out with cause START_FAIL. -/
theorem test_start_timer_expiry :
    let u := after (.startTimerExpiry .fs1) failing23
    (u.slot .fs1).st = .lockedOut .startFail ∧ (u.slot .fs1).faults = 2 ∧ driveOut u .fs1 = none := by
  decide +kernel

/-- R74: a motor still turning at the end of its coast is STUCK. -/
theorem test_coast_timer_expiry :
    let s := withSlot .fs1 { slotIn (.coasting 10000000) with runFb := ⟨true, true, false, none⟩ }
      (ready 23)
    ((after (.coastTimerExpiry .fs1) s).slot .fs1).st = .lockedOut .stuck := by decide +kernel

/-- R78. -/
theorem test_trip_hold_expiry :
    let s := withSlot .fs1 (slotIn (.tripped (some 10000000))) (ready 23)
    ((after (.tripHoldExpiry .fs1) s).slot .fs1).st = .coasting 55000000 := by decide +kernel

/-- The pace table after R46 at 25 s: u is 11, e is 19, the step 9, D 29 and the serial 5. -/
theorem test_pace_update :
    let u := after .paceUpdate { pace23 with tp := { pace23.tp with changeDue := none } }
    u.iu.records = [⟨id22, .active fire (some ⟨29, 5#8, 23, none⟩)⟩] ∧
    u.tp.updateDue = some 15000000 ∧ u.tp.changeDue = some 40000000 := by decide +kernel

/-- R45. -/
theorem test_change_timer_expiry :
    (after .changeTimerExpiry pace23).tp.changeDue = none ∧
    (after .changeTimerExpiry pace23).now = 20000000 := by decide +kernel

/-- R51, R40: the yield hold over, rank 0 is PACE again. -/
theorem test_yield_hold_expiry :
    let s := { pace23 with
      iu := { pace23.iu with records := [⟨id22, .active fire (some ⟨20, 4#8, 23, some 10000000⟩)⟩] }
      tp := { pace23.tp with pace := .holding, updateDue := none } }
    let u := after (.yieldHoldExpiry id22) s
    u.tp.pace = .pace ∧ u.tp.updateDue = some 15000000 ∧
    u.iu.records = [⟨id22, .active fire (some ⟨20, 4#8, 23, none⟩)⟩] := by decide +kernel

/-- R15, R28: an unknown id makes a record, and QUIET turns INCIDENT; alone eligible, the station enters
PACE with the initial demand of R40. -/
theorem test_incident_received :
    let u := after .incidentReceived (receiving (frameOctets 22 (.incident id22 none fire)) (ready 30))
    u.iu.records = [⟨id22, .active fire (some ⟨20, 0#8, 30, none⟩)⟩] ∧ u.sj.mode = .incident ∧ signLit u = some .signB := by
  decide +kernel

/-- R17, R25: X is held ENDED and is answered, and Y's record, wider than the notice has it, is announced
again.  R20, R164: an INCIDENT turns a direction this station commanded before its reset, the flag is raised
and the conflict held for 2 s, and the output is dark until the first command. -/
theorem test_notice_and_conflict :
    let x : Id := ⟨24, 0#4⟩
    let s := receiving (frameOctets 22 (.incident x (some id22) fire)) (burning 30 none)
    let u := after .incidentReceived { s with iu := { s.iu with
      records := [⟨id22, .active { fire with hi := 23 } none⟩, ⟨x, .ended 0 20000000⟩] } }
    let r := receiving (frameOctets 29 (.incident id22 none ⟨22, 22, .towardB, 2, some 29⟩)) (burning 30 none)
    let v := after .incidentReceived { r with iu := { r.iu with
      records := [⟨id22, .active ⟨22, 22, .towardA, 1, some 30⟩ none⟩] } }
    (timeOf u.iu.reannounce id22 = some 10160000 ∧ timeOf u.iu.endSent x = some 10000000) ∧
    (v.no.conflict = ⟨true, some 12000000⟩ ∧ v.health.directionConflict = some 70000000 ∧
      (pinsOf v).cmdConflict = false ∧ (pinsOf (noteCommand v)).cmdConflict = true) := by decide +kernel

/-- R22: END ends the record for 60 s, and the mode follows. -/
theorem test_end_received :
    let u := after .endReceived (receiving (frameOctets 22 (.ending id22)) (burning 30 none))
    u.iu.records = [⟨id22, .ended 0 70000000⟩] ∧ u.sj.mode = .quiet := by decide +kernel

/-- R26. -/
theorem test_reannounce :
    let u := after (.reannounce id22) announcing
    u.li.tx = [⟨.incident id22 none fire, 0⟩] ∧ u.iu.reannounce = [] := by decide +kernel

/-- R21.  R153: where an INCIDENT for the id waits, the END takes its place and its attempt count. -/
theorem test_end_repeat :
    let u := after (.endRepeat id22) repeating
    let v := after (.endRepeat id22)
      { repeating with li := { repeating.li with tx := [⟨.incident id22 none fire, 3⟩] } }
    u.li.tx = [⟨.ending id22, 0⟩] ∧ u.iu.endRepeats = [] ∧ v.li.tx = [⟨.ending id22, 3⟩] := by
  decide +kernel

/-- R23. -/
theorem test_ending_timer_expiry : (after (.endingTimerExpiry id22) ended22).iu.records = [] := by
  decide +kernel

/-- R48: station 26 holds serial 4 and adopts D = 29, serial 5, from the pace station 23. -/
theorem test_status_received :
    let s := planning 26 20 .stopped .stopped 27 0 []
    let u := after .statusReceived (receiving (frameOctets 23 (statusOf 0x23#32 true 29 5#8)) s)
    u.iu.records = [⟨id22, .active fire (some ⟨29, 5#8, 23, none⟩)⟩] ∧
    (peerOf u.pt 23).liveness = .live 10000000 := by decide +kernel

/-- R119: a lower own serial loses the index. -/
theorem test_status_of_a_duplicate :
    let u := after .statusReceived
      (receiving (frameOctets 30 (statusOf 0x00C41E93#32 false 20 0#8)) (burning 30 none))
    u.sj.mode = .configFault ∧ u.iu.records = [] := by decide +kernel

/-- R112, R11: station 23, last heard at 85 °C, turns SILENT after 4 s and is taken into the span. -/
theorem test_peer_silent :
    let u := after (.peerSilent 23) besideHeat
    u.now = 13000000 ∧ (peerOf u.pt 23).liveness = .silent ∧
    u.iu.records.map contentOf = [some { fire with hi := 23 }] := by decide +kernel

/-- R93: the claim of station 24 enters the view EARLY, none of the own being SETTLING. -/
theorem test_claim_received :
    let u := after .claimReceived (receiving (frameOctets 24 (.claim 3 (entry24 false).claim)) pace23)
    u.cu.view = [{ entry24 false with heardAt := 10000000 }] := by decide +kernel

/-- R95. -/
theorem test_withdraw_received :
    (after .withdrawReceived (receiving (frameOctets 24 (.withdraw 3 .fs1 2#8)) hearing23)).cu.view = []
    := by decide +kernel

/-- R95: a RELEASE of another number leaves the entry. -/
theorem test_release_received :
    (after .releaseReceived (receiving (frameOctets 24 (.release 3 .fs1 2#8)) hearing23)).cu.view = [] ∧
    (after .releaseReceived (receiving (frameOctets 24 (.release 3 .fs1 3#8)) hearing23)).cu.view =
      [entry24 false] := by decide +kernel

/-- R147: a version other than 1. -/
theorem test_invalid_frame_taken :
    let u := after .invalidFrameTaken (receiving [0x12#8, 0x17#8, 0x00#8, 0x00#8, 0x00#8] (ready 30))
    u.health.lineErrors = some 70000000 ∧ u.li.rx = [] ∧ u.pt = [] := by decide +kernel

/-- R99: the CLAIM carries the counter, which advances, and the spacing timer runs 1 s. -/
theorem test_claim_placement :
    let u := after .claimPlacement waiting23
    u.cu.own = .settling ⟨.fs1, 0#8, ⟨0, 0, 0x00C41E92#32⟩⟩ none ∧ u.cu.counter = 1#8 ∧
    u.cu.spacingDue = some 11000000 ∧ (u.li.tx.map fun f => bodyClass f.body) = [1] := by decide +kernel

/-- R98: the claim test is made again at the spacing timer's expiry. -/
theorem test_claim_spacing_expiry :
    let s := { waiting23 with cu := { waiting23.cu with spacingDue := some 10000000 } }
    (after .claimSpacingExpiry s).cu.counter = 1#8 := by decide +kernel

/-- R100: one claim ahead, and the grant starts FS1 for 15 s. -/
theorem test_settle_expiry_grants :
    let u := after .settleExpiry (settling23 [entry24 false])
    u.cu.own = .granted ownClaim (some 20000000) ∧ (u.slot .fs1).st = .starting .towardA 25000000 ∧
    driveOut u .fs1 = some .towardA := by decide +kernel

/-- R100: an EARLY claim and a better LATE one ahead, and the claim is withdrawn. -/
theorem test_settle_expiry_withdraws :
    let u := after .settleExpiry (settling23 [entry24 false, entry25 true])
    u.cu.own = .none ∧ (u.slot .fs1).st = .startWait .towardA ∧
    u.li.tx = [⟨.withdraw 3 .fs1 5#8, 0⟩] := by decide +kernel

/-- R102: the CLAIM goes out again under its own number. -/
theorem test_claim_renewal :
    let s := { starting23 with cu := { starting23.cu with own := .granted ownClaim (some 10000000) } }
    let u := after .claimRenewal s
    u.cu.own = .granted ownClaim none ∧ u.li.tx = [⟨.claim 3 ownClaim, 0⟩] := by decide +kernel

/-- R96: 12 s after it was heard. -/
theorem test_claim_entry_expiry :
    let u := after (.claimEntryExpiry 24) hearing23
    u.now = 21000000 ∧ u.cu.view = [] := by decide +kernel

/-- R143: in INCIDENT the next STATUS is due 1 s later. -/
theorem test_presence_timer_expiry :
    let s := { burning 30 none with ba := ⟨some 10000000, none, false⟩ }
    let u := after .presenceTimerExpiry s
    u.ba = ⟨some 11000000, some 10100000, false⟩ ∧
    (u.li.tx.map fun f => bodyClass f.body) = [2] := by decide +kernel

/-- R144: a held early request is served. -/
theorem test_status_spacing_expiry :
    let s := { ready 30 with ba := ⟨some 11000000, some 10000000, true⟩ }
    let u := after .statusSpacingExpiry s
    u.ba = ⟨some 12000000, some 10100000, false⟩ ∧
    (u.li.tx.map fun f => bodyClass f.body) = [2] := by decide +kernel

/-- R145, R144: the flag is 0 and an early STATUS says so. -/
theorem test_health_flag_expiry :
    let s := { ready 30 with health := { (ready 30).health with lineErrors := some 10000000 } }
    let u := after (.healthFlagExpiry .lineErrors) s
    healthOctet u = 0#8 ∧ (u.li.tx.map fun f => bodyClass f.body) = [2] := by decide +kernel

/-- R154: station 41 waits 16 + 4 bit times of 4 µs from the end of the last stop bit. -/
theorem test_send_start :
    let s := ready 41
    let u := after .sendStart
      { s with li := { s.li with tx := [⟨.ending id22, 0⟩], idleSince := 10000000 } }
    u.now = 10000080 ∧ u.li.sending = some ⟨⟨.ending id22, 0⟩, 10000080⟩ ∧ u.li.tx = [] ∧
    txen u = true ∧ txd u = false := by decide +kernel

/-- R155, R99: an END of 7 octets takes 280 µs; the own CLAIM sent starts its settle timer. -/
theorem test_send_success :
    (after .sendSuccess (sending (.ending id22) (ready 23))).now = 10000000 ∧
    (after .sendSuccess (sending (.claim 3 ownClaim) unsent23)).cu.own =
      .settling ownClaim (some 10300000) := by decide +kernel

/-- R155: on an empty queue an END of 7 octets is sent whole 280 µs after its first start bit. -/
theorem test_send_success_is_due :
    let s := sending (.ending id22) (ready 41)
    dueCommand s = some .sendSuccess ∧ dueCommand { s with now := 9999279 } = none := by decide +kernel

/-- R156, and the figures of chapter 8: octet 1 reads back 0x21, and the frame returns with count 1. -/
theorem test_collision :
    let u := after (.collision 1 (characterBits 0x21#8)) (sending (.ending id22) (ready 41))
    u.li.tx = [⟨.ending id22, 1⟩] ∧ u.li.sending = none ∧ txen u = false := by decide +kernel

/-- R156, R145: the eighth collision of a STATUS raises TX_CONGESTED in CONFIG_FAULT too. -/
theorem test_eighth_collision_in_config_fault :
    let s := sending (.ending id22) (ready 41)
    let u := after (.collision 1 0#10) { s with
      sj := { s.sj with mode := .configFault }
      li := { s.li with sending := some ⟨⟨statusOf 0x23#32 true 29 5#8, 7⟩, 9999000⟩ } }
    u.health.txCongested.isSome = true ∧ u.li.tx = [] ∧ u.li.sending = none := by decide +kernel

/-- R150: 16 bit times of 4 µs. -/
theorem test_receiver_sync :
    let s := { ready 30 with li := { (ready 30).li with idleSince := 10000000 } }
    (after .receiverSync s).li.synced = true ∧ (after .receiverSync s).now = 10000064 := by
  decide +kernel

/-- R150: an END of station 22, its last octet to come, arrives whole. -/
theorem test_frame_arrival :
    let f := frameOctets 22 (.ending id22)
    let u := after (.frameArrival (octetAt f 6)) (assembled (f.take 6) (ready 30))
    u.li.rx = [f] ∧ u.li.assembly = [] ∧ f.length = 7 := by decide +kernel

/-- R150: a stop bit of 0. -/
theorem test_rx_frame_discard :
    let u := after (.rxFrameDiscard 0x11#8 false) (assembled [0x11#8] (ready 30))
    u.li.assembly = [] ∧ u.li.synced = false ∧ u.health.lineErrors.isSome = true := by decide +kernel

/-- R150, and the figures of chapter 8: two idle character times after the last stop bit. -/
theorem test_rx_truncation :
    let u := after .rxTruncation (assembled [0x11#8, 0x21#8] (ready 30))
    u.now = 10000080 ∧ u.li.assembly = [] ∧ u.health.lineErrors.isSome = true := by decide +kernel

/-- R162: CMD_CONFLICT stays lit while a push input is asserted. -/
theorem test_cmd_lamp_expiry :
    let s := { ready 30 with no := { (ready 30).no with conflict := ⟨true, some 10000000⟩ } }
    let held := { s with su := { s.su with pushA := ⟨true, true, none⟩ } }
    (after (.cmdLampExpiry .conflict) s).no.conflict = ⟨false, none⟩ ∧
    (after (.cmdLampExpiry .conflict) held).no.conflict = ⟨true, none⟩ := by decide +kernel

/-- R163: TRIPPED is lit 0.1 s and dark 1.9 s. -/
theorem test_slot_flt_phase :
    let s := withSlot .fs1 (slotIn (.tripped none)) (ready 30)
    let t := { s with no := { s.no with flash := s.no.flash.set .fs1 ⟨true, some 10000000⟩ } }
    (after (.slotFltPhase .fs1) t).no.flash.one = ⟨false, some 11900000⟩ := by decide +kernel

/-- R150. -/
theorem test_character_received :
    let u := after (.characterReceived 0x31#8 true) (assembled [] (ready 30))
    u.li.assembly = [0x31#8] ∧ u.li.idleSince = 10000040 := by decide +kernel

/-- R154: another station's start bit in the bit time of the own one does not stop the send, and a start bit one
microsecond before it does. -/
theorem test_character_in_the_same_bit_time :
    let s (idle : Time) : State := { ready 41 with
      li := { (ready 41).li with tx := [⟨.ending id22, 0⟩], idleSince := idle } }
    let u := after (.characterReceived 0x31#8 true) (s 9999920)
    let v := after (.characterReceived 0x31#8 true) (s 9999921)
    u.li.sending = some ⟨⟨.ending id22, 0⟩, 10000000⟩ ∧ u.li.tx = [] ∧
    v.li.sending = none ∧ v.li.idleSince = 10000040 := by decide +kernel

/-! ## Witnesses: for each statement with hypotheses, a state and operands that meet them together -/

/-- `Settled` as a check that can be run. -/
def settledCheck (s : State) : Bool :=
  (s.sj.mode != .incident || anyActive s) && (s.sj.mode != .quiet || !anyActive s) &&
    (match s.cu.own with
      | .none => true
      | .settling c _ => isStartWait (s.slot c.slot).st && s.sj.mode != .quiet
      | .granted c _ => isStarting (s.slot c.slot).st) &&
    claimTest s == none && !maintReady s

theorem settled_of_check {s : State} (h : settledCheck s = true) : Settled s := by
  simp only [settledCheck, Bool.and_eq_true, Bool.or_eq_true, bne_iff_ne, ne_eq,
    Bool.not_eq_true', beq_iff_eq] at h
  obtain ⟨⟨⟨⟨hi, hq⟩, hc⟩, ht⟩, hm⟩ := h
  refine ⟨⟨fun e => hi.resolve_left (fun n => n e), fun e => hq.resolve_left (fun n => n e)⟩, ?_, ht, hm⟩
  unfold ClaimStands
  split at hc <;> simp_all

/-- `settledCheck` of several states at once. -/
theorem all_settled {l : List State} (h : l.all settledCheck = true) : ∀ s ∈ l, Settled s :=
  fun s m => settled_of_check (List.all_eq_true.mp h s m)

/-- `Bounded` as a check that can be run. -/
def boundedCheck (s : State) : Bool :=
  decide (s.iu.records.length ≤ 6 ∧ (s.iu.records.map Rec.id).Nodup ∧
    (s.iu.endSent.map IdTime.id).Nodup ∧ s.cu.view.length ≤ 16 ∧ s.li.rx.length ≤ 16 ∧
    s.li.tx.length ≤ 10 ∧ s.su.history.length = 11)

theorem bounded_of_check {s : State} (h : boundedCheck s = true) : Bounded s := by
  obtain ⟨r, d, a, v, x, t, y⟩ := of_decide_eq_true h
  exact ⟨r, d, a, v, x, t, y⟩

/-- `ChainsEnd` as a check that can be run. -/
def chainsCheck (s : State) : Bool :=
  s.iu.records.all fun r =>
    match r.st with
    | .absorbed y => keyLt y r.id && (resolve s.iu.records r.id).any fun e => !isEnded e
    | .active _ _ | .ended _ _ => true

theorem chains_of_check {s : State} (h : chainsCheck s = true) : ChainsEnd s := by
  intro r m y e
  have c := List.all_eq_true.mp h r m
  simp only [e, Bool.and_eq_true, Option.any_eq_true, Bool.not_eq_true'] at c
  exact c

/-- Whether a command answers a next state. -/
def completes (c : Instr) (s : State) : Bool :=
  match exec c s with
  | .next _ => true
  | .fault _ | .refused _ => false

theorem next_of_completes {c : Instr} {s : State} (h : completes c s = true) :
    exec c s = .next (after c s) := by
  unfold completes at h
  unfold after
  split at h <;> simp_all

theorem held_of_released {s : State} (h : s.sj.held = false) : HeldInReset s := by
  intro e; rw [h] at e; cases e

theorem witness_StepRunsTheQueueFront :
    ({ ready 23 with pending := [.sensorRound] } : State).pending = .sensorRound :: [] := rfl

/-- The first event is due at this very moment, and one microsecond on. -/
theorem witness_IdleStepRunsTheDueEventOrTicks :
    let s : State := { ready 23 with li := { (ready 23).li with idleSince := 10000000 - 64 } }
    let t : State := { ready 23 with li := { (ready 23).li with idleSince := 10000000 - 63 } }
    s.pending = [] ∧ (∃ d, earliest (allDues s) = some d ∧ d.time = s.now) ∧
    t.pending = [] ∧ (∃ d, earliest (allDues t) = some d ∧ t.now < d.time) :=
  ⟨rfl, ⟨⟨10000000, .receiverSync⟩, by decide +kernel⟩, rfl,
    ⟨⟨10000001, .receiverSync⟩, by decide +kernel⟩⟩

theorem witness_ResetReleaseLatchesTheStraps : State.reset.sj.held = true := rfl

theorem witness_JoinEndTakesTheFirstMode :
    let s := joining22 false
    let alarmed := joining22 true
    let visit := { s with su := { s.su with maint := ⟨true, true, none⟩ } }
    let coasts := withSlot .fs1 (slotIn (.coasting 20000000)) visit
    (s.sj.joinDue = some 10000000 ∧ s.iu.heldAlarm = false ∧ s.su.maint.level = false ∧
      s.fs.maintPending = false ∧ s.li.tx.length < 7) ∧
    (alarmed.sj.joinDue = some 10000000 ∧ alarmed.iu.heldAlarm = true ∧
      alarmed.su.maint.level = false ∧ alarmed.fs.maintPending = false ∧ alarmed.iu.records = [] ∧
      ∀ p ∈ alarmed.pt, p.liveness ≠ .silent) ∧
    (visit.sj.joinDue = some 10000000 ∧ visit.iu.heldAlarm = false ∧ visit.su.maint.level = true ∧
      visit.fs.maintPending = false ∧ (allSlots.map fun k => (visit.slot k).st) =
        [.stopped, .stopped, .absent, .absent]) ∧
    isStartingOrCoasting (coasts.slot .fs1).st = true := by decide +kernel

theorem witness_SensorRoundStartsATransaction :
    Settled roundDue ∧ roundDue.su.roundDue = some 10000000 :=
  ⟨settled_of_check (by decide +kernel), rfl⟩

/-- A check that fails, the value 0x8000, and each sensor at and past an end of its range; ARMED with and
without a test met, ALARMED at the last count, and a missing sample at the ninth. -/
theorem witness_SensorSampleUpdatesReadingAndAlarm :
    ((0x00#8).toNat ≠ (0x00 + 0x00 + 90) % 256 ∧ (0xDA#8).toNat = (0x80 + 0x00 + 90) % 256 ∧
      sampleValue .heat 0xFF#8 0xD8#8 0x31#8 = some (-40) ∧
      sampleValue .heat 0xFF#8 0xD7#8 0x30#8 = none ∧
      sampleValue .heat 0x03#8 0xE8#8 0x45#8 = some 1000 ∧
      sampleValue .opacity 0x00#8 0xFF#8 0x59#8 = some 254 ∧
      sampleValue .velocity 0xFF#8 0x37#8 0x90#8 = some (-200)) ∧
    (polled .opacity (ready 23)).su.transaction = some ⟨.opacity, 10000000⟩ ∧
    warming22.su.transaction = some ⟨.heat, 10000000⟩ ∧ warming22.su.alarm = .armed ∧
    sampleValue .heat 0#8 46#8 (46#8 + 0x5A#8) = some 46 ∧
    warming22.su.history[9]? = some (some 31) ∧
    sampleValue .heat 0#8 45#8 (45#8 + 0x5A#8) = some 45 ∧
    sampleValue .heat 0#8 0#8 0#8 = none := by decide +kernel

/-- A heat alarm; MANUAL_ALARM with an empty list, two and three stations past the end of a span, three
before it, in JOINING and CONFIG_FAULT, and with six records, the nearest three stations off. -/
theorem witness_AlarmEventDeclaresOrExtends :
    let m := pressed .manualAlarm true (ready 22)
    let x := pressed .manualAlarm true (burning 24 none)
    let three := pressed .manualAlarm true (burning 25 none)
    let before := pressed .manualAlarm true (burning 19 none)
    let held (mode : Mode) : State := { m with sj := { m.sj with mode := mode } }
    let six : List Rec :=
      ⟨id22, .active fire none⟩ :: [1, 2, 3, 4, 5].map fun n => ⟨⟨30, BitVec.ofNat 4 n⟩, .absorbed id22⟩
    let full : State := { three with iu := { three.iu with records := six } }
    (∀ s ∈ [held .joining, held .configFault], Settled s) ∧
    ((∀ s ∈ [m, x, three, before, full], s.su.manualAlarm.due = some 10000000 ∧
        s.su.manualAlarm.pin = true ∧ (s.sj.mode = .quiet ∨ s.sj.mode = .incident) ∧
        s.fs.maintPending = false ∧ ∀ p ∈ s.pt, p.liveness ≠ .silent) ∧
      m.iu.records = [] ∧ x.iu.records = [⟨id22, .active fire none⟩] ∧
      fire.lo ≤ x.station + 2 ∧ x.station = fire.hi + 2 ∧
      three.station = fire.hi + 3 ∧ before.station + 3 = fire.lo ∧ fire.lo ≤ fire.hi ∧
      id22.origin ≠ three.station ∧ id22.origin ≠ before.station ∧
      6 ≤ full.iu.records.length ∧ (∀ r ∈ full.iu.records, isEnded r = false) ∧
      (∀ a ∈ actives full.iu.records, full.station + 2 < a.2.lo ∨ a.2.hi + 2 < full.station)) ∧
    hot22.su.transaction = some ⟨.heat, 10000000⟩ ∧ hot22.su.alarm = .armed ∧
    sampleValue .heat 0#8 70#8 (70#8 + 0x5A#8) = some 70 ∧
    hot22.su.history[0]? = some (some 70) ∧ hot22.sj.mode = .quiet ∧
    hot22.fs.maintPending = false ∧ hot22.iu.records = [] ∧
    (∀ p ∈ hot22.pt, p.liveness ≠ .silent) :=
  ⟨all_settled (by decide +kernel), by decide +kernel⟩

theorem witness_PinChangesStartTheirFilters :
    let s := ready 23
    s.sj.held = false ∧ true ≠ (s.su.input .pushA).pin ∧ (s.slot .fs1).st ≠ .absent ∧
    s.fs.initDue = none ∧ true ≠ ((s.slot .fs1).input .tripFb).pin := by decide +kernel

theorem witness_DebounceExpiryTakesTheLevel :
    ((pressed .manualAlarm true (ready 23)).su.input .manualAlarm).due = some 10000000 := rfl

/-- Revision 14 is accepted, revision 15 and no governing incident are refused. -/
theorem witness_DirectionCommandIsAcceptedOrRefused :
    let at14 : State := { burning 30 none with
      iu := { (burning 30 none).iu with
        records := [⟨id22, .active ⟨22, 22, .towardA, 14, some 29⟩ none⟩] } }
    let at15 : State := { burning 30 none with
      iu := { (burning 30 none).iu with
        records := [⟨id22, .active ⟨22, 22, .towardA, 15, some 29⟩ none⟩] } }
    ((pressed .pushB true at14).su.input .pushB).due = some 10000000 ∧
    ((pressed .pushB true at14).su.input .pushB).pin = true ∧
    (pressed .pushB true at14).sj.mode = .incident ∧
    (governing (pressed .pushB true at14)).map (fun g => g.content.rev) = some 14 ∧
    ((pressed .pushB true at14).su.input .pushA).level = false ∧
    (governing (pressed .pushB true at15)).map (fun g => g.content.rev) = some 15 ∧
    governing (pressed .pushA true (ready 30)) = none ∧
    (pressed .pushA true (ready 30)).sj.mode = .quiet := by decide +kernel

/-- An ABSORBED record that resolves to the governing one. -/
theorem witness_StandDownEndsTheChain :
    let s := pressed .standDown true { burning 30 none with
      iu := { (burning 30 none).iu with
        records := [⟨id22, .active fire none⟩, ⟨⟨23, 0#4⟩, .absorbed id22⟩,
          ⟨⟨24, 0#4⟩, .ended 0 20000000⟩] } }
    s.su.standDown.due = some 10000000 ∧ s.su.standDown.pin = true ∧ s.sj.mode = .incident ∧
    (governing s).map Governing.id = some id22 ∧ s.li.tx.length < 10 ∧
    (resolve s.iu.records ⟨23, 0#4⟩).map Rec.id = some id22 ∧
    (resolve s.iu.records ⟨24, 0#4⟩).map Rec.id ≠ some id22 ∧
    governing (pressed .standDown true (ready 30)) = none := by decide +kernel

/-- A pending entry; MAINT asserted with no slot coasting and with one; MAINT released on a pending entry. -/
theorem witness_MaintenanceEntryTakesTheSlots :
    let still := pressed .maint true (ready 23)
    let coasts := withSlot .fs1 (slotIn (.coasting 20000000)) still
    let drops : State := pressed .maint false
      { ready 23 with fs := { (ready 23).fs with maintPending := true } }
    let wants : State := withSlot .fs1 { slotIn .stopped with target := .run .towardA }
      (withSlot .fs2 (slotIn (.coasting 20000000)) drops)
    (∀ s ∈ [still, coasts, wants], Settled s) ∧
    (entering.fs.maintPending = true ∧ entering.sj.mode = .quiet ∧
      (allSlots.all fun k => !isStartingOrCoasting (entering.slot k).st) = true ∧
      still.su.maint.due = some 10000000 ∧ still.su.maint.pin = true ∧ still.sj.mode = .quiet ∧
      (allSlots.all fun k => !isStartingOrCoasting (still.slot k).st) = true ∧
      isStartingOrCoasting (coasts.slot .fs1).st = true ∧
      (∀ s ∈ [drops, wants], s.su.maint.due = some 10000000 ∧ s.su.maint.pin = false ∧
        s.sj.mode = .quiet ∧ s.fs.maintPending = true) ∧
      (wants.slot .fs1).st = .stopped ∧ (wants.slot .fs1).target = .run .towardA) :=
  ⟨all_settled (by decide +kernel), by decide +kernel⟩

/-- Both outcomes of a LOCAL slot whose motor runs: no plan wants it, and a plan that does. -/
theorem witness_MaintenanceExitTakesUpTheSlots :
    let wanted := pressed .maint false { burning 23 none with
      sj := { (burning 23 none).sj with mode := .maintenance }
      fs := { visited.fs with slots := ⟨{ slotIn .localControl with
        runFb := ⟨true, true, true, none⟩ }, slotIn .absent, slotIn .absent, slotIn .absent⟩ } }
    (visited.slot .fs3).st = .absent ∧ (visited.slot .fs2).faults = 2 ∧
    (wanted.su.maint.due = some 10000000 ∧ wanted.su.maint.pin = false ∧
      wanted.sj.mode = .maintenance ∧ wanted.fs.maintPending = false ∧
      (after (.debounceExpiry .maint) wanted).tp.targets.get .fs1 = .run .towardA ∧
      (after (.debounceExpiry .maint) visited).tp.targets.get .fs1 = .off) ∧
    visited.su.maint.due = some 10000000 ∧ visited.su.maint.pin = false ∧
    visited.sj.mode = .maintenance ∧ visited.fs.maintPending = false ∧
    (visited.slot .fs1).st = .localControl ∧ (visited.slot .fs2).st = .lockedOut .startFail ∧
    (visited.slot .fs1).tripFb.level = false ∧ (visited.slot .fs1).runFb.level = true ∧
    (visited.slot .fs2).runFb.level = false := by decide +kernel

/-- The renewal CLAIM of a start that comes to run, and of one that fails, waits unsent. -/
theorem witness_RunFeedbackTaken_renewal :
    let y : TxFrame := ⟨.claim 3 ownClaim, 2⟩
    let renewing (s : State) : State := { s with li := { s.li with tx := [⟨.ending id22, 0⟩] ++ y :: [] } }
    (∀ s ∈ [renewing starting23, renewing failing23], s.cu.own = .granted ownClaim none ∧
      s.sj.mode ≠ .configFault ∧ s.li.tx = [⟨.ending id22, 0⟩] ++ y :: [] ∧
      claimNumber y.body = some ownClaim.number ∧
      ∀ z ∈ [(⟨.ending id22, 0⟩ : TxFrame)], claimNumber z.body ≠ some ownClaim.number) ∧
    ((renewing starting23).slot .fs1).runFb.pin = true ∧
    ((renewing failing23).slot .fs1).st = .starting .towardA 10000000 := by decide +kernel

/-- A start that comes to run with its claim GRANTED; and a motor lost at the second fault. -/
theorem witness_RunFeedbackTaken :
    let lost := withSlot .fs1 { slotIn (.running .towardA) with
      faults := 1, runFb := ⟨false, true, false, some 10000000⟩ } (ready 23)
    (∀ s ∈ [starting23, lost], Settled s) ∧ starting23.fs.maintPending = false ∧
    (starting23.slot .fs1).runFb.due = some 10000000 ∧ (starting23.slot .fs1).runFb.pin = true ∧
    starting23.cu.own = .granted ownClaim none ∧ ownClaim.slot = .fs1 ∧
    starting23.sj.mode ≠ .configFault ∧ starting23.li.tx.length < 10 ∧
    (lost.slot .fs1).runFb.due = some 10000000 ∧ (lost.slot .fs1).runFb.pin = false ∧
    (lost.slot .fs1).st = .running .towardA ∧ (lost.slot .fs1).tripFb.level = false :=
  ⟨all_settled (by decide +kernel), by decide +kernel⟩

/-- A trip that ends a start, its claim's renewal unsent and with none waiting. -/
theorem witness_TripAndDirectionFeedbackTaken_start :
    let y : TxFrame := ⟨.claim 3 ownClaim, 2⟩
    let s : State := { filtered .tripFb true (.starting .towardA 24000000) (.run .towardA) starting23 with
      li := { starting23.li with tx := [⟨.ending id22, 0⟩] ++ y :: [] } }
    Settled s ∧ (s.fs.maintPending = false ∧ (s.slot .fs1).tripFb.due = some 10000000 ∧
      (s.slot .fs1).tripFb.pin = true ∧ (s.slot .fs1).st = .starting .towardA 24000000 ∧
      s.cu.own = .granted ownClaim none ∧ ownClaim.slot = .fs1 ∧ s.sj.mode ≠ .configFault ∧
      s.li.tx = [⟨.ending id22, 0⟩] ++ y :: [] ∧ claimNumber y.body = some ownClaim.number ∧
      s.li.tx.length < 10 ∧
      ∀ z ∈ [(⟨.ending id22, 0⟩ : TxFrame)], claimNumber z.body ≠ some ownClaim.number) :=
  ⟨settled_of_check (by decide +kernel), by decide +kernel⟩

theorem witness_TripAndDirectionFeedbackTaken :
    (((filtered .dirFb true .stopped .off (ready 23)).slot .fs1).dirFb.due = some 10000000) ∧
    let s := filtered .tripFb true (.running .towardA) (.run .towardA) (burning 23 none)
    let t := filtered .tripFb false (.tripped none) .off (ready 23)
    (s.slot .fs1).tripFb.due = some 10000000 ∧ (s.slot .fs1).st = .running .towardA ∧
    (t.slot .fs1).tripFb.due = some 10000000 ∧ (t.slot .fs1).st = .tripped none := by decide +kernel

theorem witness_StartingLevelsAreTaken :
    let s := withSlot .fs2 (slotIn (.lockedOut .stuck)) (withSlot .fs1 (slotIn (.coasting 45000000))
      { ready 23 with fs := { (ready 23).fs with initDue := some 10000000 } })
    s.fs.initDue = some 10000000 ∧ s.fs.maintPending = false ∧
    (s.slot .fs1).st = .coasting 45000000 ∧ (s.slot .fs2).st = .lockedOut .stuck ∧
    (s.slot .fs3).st = .absent := by decide +kernel

theorem witness_StartTimerFailsTheStart :
    (failing23.slot .fs1).st = .starting .towardA 10000000 ∧
    failing23.cu.own = .granted ownClaim none ∧ ownClaim.slot = .fs1 ∧
    failing23.sj.mode ≠ .configFault ∧ failing23.li.tx.length < 10 := by decide +kernel

/-- No entry pending; one that waits for another slot too; and one that waits for this coast alone, with no slot
running and with one, whose target stands, and which a STUCK slot's place in the plan leaves without one. -/
theorem witness_CoastAndTripHoldEnd :
    let s := withSlot .fs2 (slotIn (.tripped (some 10000000)))
      (withSlot .fs1 (slotIn (.coasting 10000000)) (ready 23))
    let pends (u : State) : State := { u with fs := { u.fs with maintPending := true } }
    let both := pends (withSlot .fs2 (slotIn (.coasting 20000000)) s)
    let alone := pends s
    let runs (b : Bool) : State := pends { pace23 with fs := { pace23.fs with slots :=
      ⟨{ slotIn (.coasting 10000000) with runFb := ⟨b, b, false, none⟩ }, slotIn (.running .towardB),
        slotIn .absent, slotIn .absent⟩ } }
    (∀ u ∈ [s, both, alone, runs false, runs true], Settled u) ∧
    ((runs false).sj.mode = .incident ∧ ((runs false).slot .fs1).runFb.level = false ∧
      (allSlots.filter fun k => isStartingOrCoasting ((runs false).slot k).st) = [.fs1] ∧
      (after (.coastTimerExpiry .fs1) (runs false)).sj.mode = .maintenance ∧
      (after (.coastTimerExpiry .fs1) (runs true)).fs.maintPending = true) ∧
    (s.slot .fs1).st = .coasting 10000000 ∧ (s.slot .fs2).st = .tripped (some 10000000) ∧
    s.fs.maintPending = false ∧ isStartingOrCoasting (both.slot .fs2).st = true ∧
    alone.fs.maintPending = true ∧ alone.sj.mode = .quiet ∧
    (allSlots.filter fun k => isStartingOrCoasting (alone.slot k).st) = [.fs1] :=
  ⟨all_settled (by decide +kernel), by decide +kernel⟩

/-- The thrust meets the demand; falls short with the change timer still to run, and with it at its
expiry; and no reading. -/
theorem witness_PaceUpdateStepsTheDemand :
    let withheld : State := { pace23 with
      fs := ⟨⟨slotIn .stopped, slotIn .stopped, slotIn .absent, slotIn .absent⟩, false, none⟩ }
    let passes : State := { withheld with tp := { withheld.tp with changeDue := some 10000000 } }
    let blind : State := { burning 23 none with tp := pace23.tp }
    (∀ s ∈ [pace23, withheld, passes, blind], s.tp.updateDue = some 10000000 ∧ s.now = 10000000 ∧
      (governing s).map Governing.content = some fire) ∧
    velocitySet pace23 fire = [-12, -10, -11] ∧ realisedThrust pace23 fire = 20 ∧
    (governing pace23).map (demandOf pace23) = some 20 ∧
    realisedThrust withheld fire = 12 ∧ withheld.tp.changeDue = some 20000000 ∧
    max withheld.now 10000000 < 20000000 ∧ passes.tp.changeDue = some (max passes.now 10000000) ∧
    velocitySet blind fire = [] := by decide +kernel

theorem witness_ChangeTimerAndYieldHoldEnd :
    let s := burning 23 (some ⟨20, 4#8, 24, some 10000000⟩)
    Settled pace23 ∧ pace23.tp.changeDue = some 20000000 ∧
    findRec s.iu.records id22 = some ⟨id22, .active fire (some ⟨20, 4#8, 24, some 10000000⟩)⟩ ∧
    (governing s).map Governing.id = some id22 ∧ s.sj.mode ≠ .configFault :=
  ⟨settled_of_check (by decide +kernel), by decide +kernel⟩

theorem witness_PreferenceOrderIsR37 :
    1 ≤ fire.lo ∧ fire.lo ≤ fire.hi ∧ fire.hi ≤ pace23.count ∧
    preferenceOrder pace23 fire ≠ [] := by decide +kernel

/-- A station of rank 0 that is PACE, one that is to enter PACE with no demand part, one whose yield hold
runs; a share of one fan for a slot of the lower number; and no governing incident. -/
theorem witness_RecomputeTargetsTheShare :
    let enters : State := { burning 30 none with tp := (ready 23).tp }
    let holds := burning 23 (some ⟨20, 4#8, 24, some 20000000⟩)
    let one := planning 27 29 .stopped .stopped 27 0
      [seen 23 2 2 45 0, seen 24 2 2 30 0, seen 25 1 1 28 0, seen 26 2 0 27 0]
    (governing pace23).map Governing.content = some fire ∧ pace23.sj.mode = .incident ∧
    rankIn pace23.station (preferenceOrder pace23 fire) = some 0 ∧ pace23.tp.pace = .pace ∧
    (recompute enters).tp.pace = .pace ∧ enters.tp.pace ≠ .pace ∧
    ((governing enters).bind Governing.demand) = none ∧ (recompute holds).tp.pace = .holding ∧
    (recompute one).tp.targets.get .fs1 = .run .towardA ∧ (recompute one).tp.targets.get .fs2 = .off ∧
    (governing one).map (ownShare one) = some 1 ∧ governing (ready 23) = none := by
  decide +kernel

/-- A record made and another that comes to govern, a direction that changes, and none that governs any longer. -/
theorem witness_RecomputeTargetsTheShare_changeTimer :
    let made := receiving (frameOctets 22 (.incident id22 none fire)) (ready 30)
    let turned := receiving
      (frameOctets 29 (.incident id22 none ⟨22, 22, .towardB, 2, some 29⟩)) (burning 30 none)
    let nearer := receiving
      (frameOctets 29 (.incident ⟨29, 0#4⟩ none ⟨29, 29, .towardA, 0, none⟩)) (burning 30 none)
    let ends := receiving (frameOctets 22 (.ending id22)) (burning 30 none)
    let told (v : State) := (governing v).map fun g => (g.id, g.content.dir)
    (∀ s ∈ [made, turned, nearer], completes .incidentReceived s = true ∧
      told (after .incidentReceived s) ≠ told s ∧
      (governing (after .incidentReceived s)).isSome = true ∧
      (after .incidentReceived s).sj.mode ≠ .configFault) ∧
    (completes .endReceived ends = true ∧ (governing ends).isSome = true ∧
      governing (after .endReceived ends) = none) := by decide +kernel

/-- Every trigger of R56 that an event can pull: the mode and the governing record at a stand-down, the own
fans at a trip, the own temperature class at a sample, a peer's liveness, D at a pace update, and the end of a
yield hold. -/
theorem witness_RecomputeTargetsTheShare_triggers :
    let off := pressed .standDown true pace23
    let trips := filtered .tripFb true .stopped .off pace23
    let warms : State := polled .heat { pace23 with su := { pace23.su with heat := ⟨none, 10⟩ } }
    let steps : State := { pace23 with tp := { pace23.tp with changeDue := none } }
    let held : State := { pace23 with
      iu := { pace23.iu with records := [⟨id22, .active fire (some ⟨20, 4#8, 23, some 10000000⟩)⟩] } }
    let moved (i : Instr) (s : State) : Trigger × Bool :=
      (triggerOf (after i s), yieldEnded s (after i s))
    (completes (.debounceExpiry .standDown) off && completes (.slotInputFilterExpiry .fs1 .tripFb) trips &&
      completes (sampleOf 0#8 61#8) warms && completes (.peerSilent 24) pace23 &&
      completes .paceUpdate steps && completes (.yieldHoldExpiry id22) held) = true ∧
    (moved (.debounceExpiry .standDown) off).1.mode ≠ (triggerOf off).mode ∧
    (moved (.debounceExpiry .standDown) off).1.gov ≠ (triggerOf off).gov ∧
    (moved (.slotInputFilterExpiry .fs1 .tripFb) trips).1.fans ≠ (triggerOf trips).fans ∧
    (moved (sampleOf 0#8 61#8) warms).1.cls ≠ (triggerOf warms).cls ∧
    (moved (.peerSilent 24) pace23).1.peers ≠ (triggerOf pace23).peers ∧
    (moved .paceUpdate steps).1.demand ≠ (triggerOf steps).demand ∧
    (moved (.yieldHoldExpiry id22) held).2 = true := by decide +kernel

/-- Two ACTIVE records at the same distance from station 23. -/
theorem witness_GoverningIsTheNearest :
    let s : State := { burning 23 none with
      iu := { (burning 23 none).iu with
        records := [⟨⟨24, 0#4⟩, .active ⟨24, 24, .towardA, 0, none⟩ none⟩,
          ⟨id22, .active fire none⟩] } }
    (s.iu.records.map Rec.id).Nodup ∧ (governing s).map Governing.id = some id22 ∧
    distance s.station fire = distance s.station ⟨24, 24, .towardA, 0, none⟩ := by decide +kernel

/-- Another origin, a distance of 7, and the tie at 8. -/
theorem witness_KeysCompareAsR4 :
    (⟨21, 0#4⟩ : Id).origin ≠ (⟨22, 0#4⟩ : Id).origin ∧
    (⟨22, 0#4⟩ : Id).origin = (⟨22, 7#4⟩ : Id).origin ∧ (⟨22, 0#4⟩ : Id) ≠ ⟨22, 8#4⟩ := by decide

/-- Five records, six with none ENDED, and six with two ENDED in one event. -/
theorem witness_MakingRoomIsR3 :
    let a (n : Nat) : Rec := ⟨⟨n, 0#4⟩, .active fire none⟩
    let e (n : Nat) : Rec := ⟨⟨n, 0#4⟩, .ended 3 20000000⟩
    let five := [a 1, a 2, a 3, a 4, e 5]
    let six := [a 1, a 2, a 3, a 4, a 5, a 6]
    let two := [a 1, a 2, a 3, a 4, e 5, e 6]
    ((five.map Rec.id).Nodup ∧ five.length < 6) ∧
    ((six.map Rec.id).Nodup ∧ 6 ≤ six.length ∧ (∀ r ∈ six, isEnded r = false)) ∧
    ((two.map Rec.id).Nodup ∧ 6 ≤ two.length ∧ e 6 ∈ two ∧
      keyLt (e 5).id (e 6).id = true ∧ makeRoom two = some five) := by decide +kernel

theorem witness_MergeIsR12 :
    let a : Content := ⟨22, 22, .towardA, 1, some 30⟩
    let b : Content := ⟨23, 24, .towardB, 1, some 31⟩
    (a.rev, a.cmd.getD 0) ≠ (b.rev, b.cmd.getD 0) := by decide

/-- An empty list, a record held ACTIVE, one this station had commanded toward the other side, one two and
one three stations off, and one held ENDED with and without an answer just sent. -/
theorem witness_IncidentReceivedIsAppliedOrAnswered :
    let f := frameOctets 22 (.incident id22 none fire)
    let s := receiving f (ready 30)
    let t := receiving f (burning 30 none)
    let e := receiving f ended22
    let answered : State := { e with iu := { e.iu with endSent := [⟨id22, 9000001⟩] } }
    (s.li.rx = f :: [] ∧ classify s.count f = .incident ∧
      readIncident s.count (frameBody f) = some (.active id22 fire) ∧ s.sj.mode = .quiet ∧
      s.fs.maintPending = false ∧ (∀ p ∈ s.pt, p.liveness ≠ .silent) ∧ s.iu.records = []) ∧
    (t.sj.mode = .incident ∧ t.iu.records = [⟨id22, .active fire none⟩]) ∧
    (let old : Content := ⟨22, 22, .towardB, 1, some 30⟩
     let new : Content := ⟨22, 22, .towardA, 2, some 29⟩
     old.cmd = some s.station ∧ (merge old new).dir ≠ old.dir ∧
      (merge old new).cmd ≠ some s.station ∧
      readIncident s.count (frameBody (frameOctets 29 (.incident id22 none new))) =
        some (.active id22 new)) ∧
    (let near : Content := ⟨25, 25, .towardA, 0, none⟩
     let far : Content := ⟨26, 26, .towardA, 0, none⟩
     fire.lo ≤ near.hi + 3 ∧ near.lo ≤ fire.hi + 3 ∧ ¬ (far.lo ≤ fire.hi + 3) ∧
      keyLt id22 ⟨25, 0#4⟩ = true ∧ (⟨25, 0#4⟩ : Id) ≠ id22) ∧
    (findRec e.iu.records id22 = some ⟨id22, .ended 0 10000000⟩ ∧ e.iu.records.length = 1 ∧
      e.sj.mode ≠ .configFault ∧ e.li.tx.length < 10 ∧ withinRate e.iu.endSent id22 e.now = false ∧
      withinRate answered.iu.endSent id22 answered.now = true) := by decide +kernel

/-- The notice that 23/0 was absorbed into 22/0, the two held as the statement's clauses have them. -/
theorem witness_IncidentReceivedIsAppliedOrAnswered_notice :
    let x : Id := ⟨23, 0#4⟩
    let f := frameOctets 22 (.incident x (some id22) fire)
    let s (rs : List Rec) : State :=
      let r := receiving f (ready 30)
      { r with iu := { r.iu with records := rs } }
    let both : List Rec := [⟨x, .active fire none⟩, ⟨id22, .active fire none⟩]
    let loop : List Rec := [⟨x, .active fire none⟩, ⟨id22, .absorbed x⟩]
    (∀ r ∈ [s [], s both, s loop, s [⟨x, .active fire none⟩, ⟨id22, .ended 0 20000000⟩]],
      r.li.rx = f :: [] ∧ classify r.count f = .incident ∧
      readIncident r.count (frameBody f) = some (.absorbed x id22 fire) ∧ r.sj.mode = .quiet ∧
      ∀ p ∈ r.pt, p.liveness ≠ .silent) ∧
    (actives loop = [(x, fire)] ∧ (resolve loop x).map Rec.id = some x ∧
      (resolve loop id22).map Rec.id = some x) := by decide +kernel

/-- Six records, none ENDED, that an unknown id, an unknown survivor and an unknown absorbed id find. -/
theorem witness_IncidentReceivedIsAppliedOrAnswered_full :
    let six : List Rec :=
      ⟨id22, .active fire none⟩ :: [1, 2, 3, 4, 5].map fun n => ⟨⟨30, BitVec.ofNat 4 n⟩, .absorbed id22⟩
    let s (f : Octets) : State :=
      let r := receiving f (burning 30 none)
      { r with iu := { r.iu with records := six } }
    let new : Id := ⟨23, 0#4⟩
    let a := frameOctets 22 (.incident new none fire)
    let b := frameOctets 22 (.incident ⟨30, 1#4⟩ (some new) fire)
    let c := frameOctets 22 (.incident new (some id22) fire)
    (∀ f ∈ [a, b, c], (s f).li.rx = f :: [] ∧ classify (s f).count f = .incident ∧
      (s f).sj.mode ≠ .configFault) ∧
    6 ≤ six.length ∧ (∀ r ∈ six, isEnded r = false) ∧ findRec six new = none ∧
    (findRec six id22).isSome = true ∧
    readIncident 60 (frameBody a) = some (.active new fire) ∧
    readIncident 60 (frameBody b) = some (.absorbed ⟨30, 1#4⟩ new fire) ∧
    readIncident 60 (frameBody c) = some (.absorbed new id22 fire) := by decide +kernel

/-- Frames of R14's checks, each failing at a bound: the origin is COUNT + 1, the state 0 and 4, lo is above
hi, hi is COUNT + 1, the revision 16, a COMPUTED one with revision 1, and a survivor of the higher key. -/
theorem witness_IncidentReceivedIsAppliedOrAnswered_checks :
    let good := frameBody (frameOctets 22 (.incident id22 none fire))
    let notice := frameBody (frameOctets 22 (.incident id22 (some ⟨23, 0#4⟩) fire))
    good = [22#8, 0x10#8, 22#8, 22#8, 0#8, 0#8, 0#8, 0#8, 0#8] ∧
    (∀ b ∈ [good.set 0 61#8, good.set 1 0x00#8, good.set 1 0x40#8, good.set 2 23#8, good.set 3 61#8,
        good.set 5 16#8, good.set 5 1#8, notice], readIncident 60 b = none) ∧
    (let f := frameOctets 22 (.incident id22 none { fire with lo := 23 })
     let s := receiving f (ready 30)
     s.li.rx = f :: [] ∧ classify s.count f = .incident ∧ s.sj.mode ≠ .configFault ∧
      natAt (frameBody f) 3 < natAt (frameBody f) 2) := by decide +kernel

theorem witness_EndReceivedAndEndingTimer :
    let f := frameOctets 22 (.ending id22)
    let s := receiving f (burning 30 none)
    let t := receiving f (ready 30)
    s.li.rx = f :: [] ∧ classify s.count f = .ending ∧ s.sj.mode ≠ .configFault ∧
    readEnd s.count (frameBody f) = some id22 ∧
    (let b : Octets := (incidentOctets id22 none fire).set 1 0x30#8
     let h : Octets := [0x21#8, 0x16#8, 0x09#8] ++ b
     let g := h ++ octets16 (crc h)
     (receiving g (burning 30 none)).li.rx = g :: [] ∧ classify s.count g = .incident ∧
      readIncident s.count (frameBody g) = some (.ended id22)) ∧
    (resolve s.iu.records id22).map isEnded = some false ∧
    (resolve (receiving f ended22).iu.records id22).map isEnded = some true ∧
    findRec t.iu.records id22 = none ∧ t.iu.records.length < 6 ∧
    findRec ended22.iu.records id22 = some ⟨id22, .ended 0 10000000⟩ := by decide +kernel

/-- A defer that ends one second after the last INCIDENT, one that ends a microsecond sooner, and one
whose record has ended. -/
theorem witness_ReannounceAndEndRepeatPlaceTheirBulletins :
    let early : State := { announcing with
      iu := { announcing.iu with incidentSent := [⟨id22, 9000001⟩] } }
    let onTime : State := { announcing with
      iu := { announcing.iu with incidentSent := [⟨id22, 9000000⟩] } }
    let gone : State := { ended22 with iu := { ended22.iu with reannounce := [⟨id22, 10000000⟩] } }
    (∀ s ∈ [onTime, early, gone, repeating], Settled s) ∧
    (timeOf onTime.iu.reannounce id22 = some 10000000 ∧
      findRec onTime.iu.records id22 = some ⟨id22, .active fire none⟩ ∧
      resolvedContent onTime.iu.records id22 = some fire ∧
      timeOf onTime.iu.incidentSent id22 = some 9000000 ∧
      9000000 + 1000000 ≤ max onTime.now 10000000 ∧
      onTime.sj.mode ≠ .configFault ∧ onTime.li.tx.length < 10 ∧
      (∀ x ∈ onTime.li.tx, bodyId x.body ≠ some id22)) ∧
    (timeOf early.iu.incidentSent id22 = some 9000001 ∧ max early.now 10000000 < 9000001 + 1000000) ∧
    (timeOf gone.iu.reannounce id22 = some 10000000 ∧ resolvedContent gone.iu.records id22 = none) ∧
    (let f (c : Content) := frameOctets 22 (.incident id22 none c)
     let wide : Content := { fire with hi := 23 }
     (∀ c ∈ [fire, wide], classify announcing.count (f c) = .incident ∧
       readIncident announcing.count (frameBody (f c)) = some (.active id22 c)) ∧
     (receiving (f fire) announcing).li.rx = f fire :: [] ∧ announcing.sj.mode ≠ .configFault ∧
     announcing.iu.records = [⟨id22, .active fire none⟩] ∧
     (∀ p ∈ announcing.pt, p.liveness ≠ .silent) ∧ merge fire fire = fire ∧ merge wide fire ≠ fire) ∧
    (repeating.iu.endRepeats = ⟨id22, 10000000⟩ :: [] ∧ repeating.sj.mode ≠ .configFault ∧
      repeating.li.tx.length < 10 ∧ (∀ y ∈ repeating.li.tx, bodyId y.body ≠ some id22)) :=
  ⟨all_settled (by decide +kernel), by decide +kernel⟩

/-- A frame of class 0 for the id waits, an END where the INCIDENT is placed and an INCIDENT where the END is, the
queue full. -/
theorem witness_ReannounceAndEndRepeatPlaceTheirBulletins_place :
    let others := (List.range 9).map fun n => (⟨.ending ⟨n + 1, 0#4⟩, 0⟩ : TxFrame)
    let waits (b : Body) (s : State) : State := { s with li := { s.li with tx := others ++ ⟨b, 3⟩ :: [] } }
    let a := waits (.ending id22) announcing
    let b := waits (.incident id22 none fire) repeating
    (∀ s ∈ [a, b], Settled s) ∧
    (timeOf a.iu.reannounce id22 = some 10000000 ∧
      findRec a.iu.records id22 = some ⟨id22, .active fire none⟩ ∧
      resolvedContent a.iu.records id22 = some fire ∧ timeOf a.iu.incidentSent id22 = none ∧
      a.sj.mode ≠ .configFault ∧ b.iu.endRepeats = ⟨id22, 10000000⟩ :: [] ∧ b.sj.mode ≠ .configFault) ∧
    (bodyId (.ending id22) = some id22 ∧ bodyId (.incident id22 none fire) = some id22 ∧
      others.length + 1 = 10 ∧ ∀ x ∈ others, bodyId x.body ≠ some id22) :=
  ⟨all_settled (by decide +kernel), by decide +kernel⟩

/-- A STATUS that governs another digest, one that lists nothing here, one that lists the governing record
ENDED, one that mentions an id held ENDED, one that carries own ids, and one that fails R114. -/
theorem witness_StatusReceivedIsStored :
    let view : View := ⟨.incident, 2, 2, 0, some 45, some (-12)⟩
    let part (d : BitVec 16) : StatusPart := ⟨view, some ⟨id22, d, 29, 5#8, false⟩, [⟨id22, .active⟩]⟩
    let bare : StatusPart := ⟨{ view with mode := .quiet }, none, []⟩
    let ends : StatusPart := ⟨{ view with mode := .quiet }, none, [⟨id22, .ended⟩]⟩
    let own : StatusPart := ⟨{ view with mode := .quiet }, none, [⟨⟨30, 7#4⟩, .ended⟩]⟩
    let f (p : StatusPart) := frameOctets 23 (.status 0x23#32 p 0#8)
    let bad := f { bare with view := { view with fans := 1 } }
    let s (o : Octets) := receiving o (burning 30 none)
    let late := receiving (f (part 0#16)) { ended22 with sj := { (ready 30).sj with mode := .quiet } }
    (∀ p ∈ [part 0#16, part (digest id22 fire), bare, ends, own],
      (s (f p)).li.rx = f p :: [] ∧ classify (s (f p)).count (f p) = .status ∧
      (s (f p)).sj.mode ≠ .configFault ∧ frameSource (f p) ≠ (s (f p)).station ∧
      readStatus (s (f p)).count (frameBody (f p)) = some p) ∧
    (classify 60 bad = .status ∧ readStatus 60 (frameBody bad) = none) ∧
    (governing (s (f bare))).map Governing.id = some id22 ∧ digest id22 fire ≠ 0#16 ∧
    seqOlder (s (f own)).iu.counter (7#4 + 1#4) = true ∧
    (heldEnded late.iu.records id22 = true ∧ (late.iu.endSent.map IdTime.id).Nodup ∧
      withinRate late.iu.endSent id22 late.now = false ∧ late.li.tx.length + 1 ≤ 10) := by
  decide +kernel

/-- A serial that is older, and equal ones from a sender that ranks before the held source, that is that source,
and that is not in the order; and a STATUS without the pace flag. -/
theorem witness_PaceFlaggedStatusIsAdoptedOrYieldedTo_serials :
    let f := frameOctets 23 (statusOf 0x23#32 true 29 5#8)
    let d (n : BitVec 8) (source : Nat) : State := receiving f
      { planning 26 20 .stopped .stopped 27 0 [] with
        iu := (burning 26 (some ⟨20, n, source, none⟩)).iu }
    let held (s : State) : Option (Nat × Nat) :=
      (((governing (after .statusReceived s)).bind Governing.demand)).map fun x => (x.d, x.source)
    (∀ s ∈ [d 6#8 27, d 5#8 27, d 5#8 23], s.li.rx = f :: [] ∧ classify s.count f = .status ∧
      s.sj.mode = .incident ∧ s.fs.maintPending = false ∧ s.tp.pace = .notPace ∧
      frameSource f ≠ s.station ∧ (governing s).map Governing.id = some id22) ∧
    (serialNewer 5#8 6#8 = false ∧ serialNewer 5#8 5#8 = false) ∧
    (held (d 6#8 27) = some (20, 27) ∧ held (d 5#8 27) = some (29, 23) ∧
      held (d 5#8 23) = some (20, 23)) ∧
    (let g := frameOctets 23 (statusOf 0x23#32 false 29 9#8)
     held (receiving g (d 6#8 27)) = some (20, 27) ∧ classify 60 g = .status ∧
      ((readStatus 60 (frameBody g)).bind StatusPart.gov).map GovBlock.pace = some false) := by
  decide +kernel

/-- A station that is NOT_PACE and hears a newer serial, and the pace station 24 that hears one placed
better. -/
theorem witness_PaceFlaggedStatusIsAdoptedOrYieldedTo :
    let f := frameOctets 23 (statusOf 0x23#32 true 29 5#8)
    let s := receiving f (planning 26 20 .stopped .stopped 27 0 [])
    let t : State := { s with
      sj := { s.sj with straps := strapsOf 24 }
      tp := { s.tp with pace := .pace } }
    (s.li.rx = f :: [] ∧ classify s.count f = .status ∧ s.sj.mode = .incident ∧
      s.fs.maintPending = false ∧ frameSource f ≠ s.station ∧
      ((readStatus s.count (frameBody f)).bind StatusPart.gov).map (fun b => (b.pace, b.serial)) =
        some (true, 5#8) ∧
      (governing s).map Governing.id = some id22 ∧
      (resolve s.iu.records id22).map Rec.id = some id22 ∧ s.tp.pace = .notPace ∧
      serialNewer 5#8 4#8 = true) ∧
    (t.sj.mode = .incident ∧ frameSource f ≠ t.station ∧ t.tp.pace ≠ .notPace ∧
      (governing t).map Governing.content = some fire ∧
      betterPlaced fire (frameSource f) t.station = true) := by decide +kernel

theorem witness_SerialsAndClaimKeysCompare :
    (⟨0, 0, 1#32⟩ : Key) ≠ ⟨0, 0, 2#32⟩ ∧ serialNewer 127#8 0#8 = true ∧
    serialNewer 128#8 0#8 = false ∧ serialNewer 0#8 128#8 = false := by decide +kernel

/-- The own serial one below, one above and equal. -/
theorem witness_DuplicateIndexIsDecidedBySerial :
    let f (n : BitVec 32) := frameOctets 30 (statusOf n false 20 0#8)
    let s (n : BitVec 32) := receiving (f n) (burning 30 none)
    (∀ x ∈ [s 0x00C41E91#32, s 0x00C41E92#32], Settled x) ∧
    ((s 0x00C41E93#32).li.rx = f 0x00C41E93#32 :: [] ∧
      classify (s 0x00C41E93#32).count (f 0x00C41E93#32) = .status ∧
      (s 0x00C41E93#32).sj.mode ≠ .configFault ∧
      frameSource (f 0x00C41E93#32) = (s 0x00C41E93#32).station ∧
      statusLengthOk (frameBody (f 0x00C41E93#32)) = true ∧
      (s 0x00C41E93#32).sj.serial.toNat < (statusSerial (frameBody (f 0x00C41E93#32))).toNat ∧
      (statusSerial (frameBody (f 0x00C41E91#32))).toNat < (s 0x00C41E91#32).sj.serial.toNat ∧
      statusSerial (frameBody (f 0x00C41E92#32)) = (s 0x00C41E92#32).sj.serial) :=
  ⟨all_settled (by decide +kernel), by decide +kernel⟩

theorem witness_PeerTurnsSilent : (peerOf besideHeat.pt 23).liveness = .live 9000000 := by
  decide +kernel

/-- A peer SILENT and hot before: next beyond the one that turns SILENT, beside the station at an alarm, and beside
the span of an INCIDENT that makes a record or makes one grow. -/
theorem witness_BurntPeerJoinsTheSpan_silent :
    let hot (p : Nat) : Peer := { seen p 2 0 60 0 with liveness := .silent, stale := true }
    let beyond : State := { burning 30 none with pt := [seen 23 2 0 85 0, hot 24] }
    let alarm : State := pressed .manualAlarm true { ready 22 with pt := [hot 23] }
    let f := frameOctets 22 (.incident id22 none fire)
    let g := frameOctets 22 (.incident id22 none { fire with hi := 24 })
    let made : State := receiving f { ready 30 with pt := [hot 23] }
    let grows : State := receiving g { burning 30 none with pt := [hot 25] }
    ((peerOf beyond.pt 23).liveness = .live 9000000 ∧ (peerOf beyond.pt 24).liveness = .silent ∧
      24 ≤ beyond.count ∧ beyond.iu.records = [⟨id22, .active fire none⟩]) ∧
    (alarm.su.manualAlarm.due = some 10000000 ∧ alarm.su.manualAlarm.pin = true ∧
      alarm.sj.mode = .quiet ∧ alarm.iu.records = [] ∧ 23 = alarm.station + 1 ∧
      (peerOf alarm.pt 23).liveness = .silent ∧
      ((peerOf alarm.pt 23).status.bind fun st => st.view.temp) = some 60) ∧
    (made.li.rx = f :: [] ∧ classify made.count f = .incident ∧ made.sj.mode ≠ .configFault ∧
      readIncident made.count (frameBody f) = some (.active id22 fire) ∧ made.iu.records = [] ∧
      23 ≠ frameSource f ∧ 23 = fire.hi + 1) ∧
    (grows.li.rx = g :: [] ∧ classify grows.count g = .incident ∧
      readIncident grows.count (frameBody g) = some (.active id22 { fire with hi := 24 }) ∧
      grows.iu.records = [⟨id22, .active fire none⟩] ∧
      (merge fire { fire with hi := 24 }).hi ≠ fire.hi ∧
      25 = (merge fire { fire with hi := 24 }).hi + 1) := by decide +kernel

/-- 85 °C next above the span, and 60 °C next below it. -/
theorem witness_BurntPeerJoinsTheSpan :
    let s : State := { burning 24 none with pt := [seen 21 2 0 60 0] }
    ((peerOf besideHeat.pt 23).liveness = .live 9000000 ∧
      ((peerOf besideHeat.pt 23).status.map fun st => st.view.temp) = some (some 85) ∧
      besideHeat.iu.records = [⟨id22, .active fire none⟩] ∧ fire.lo ≤ fire.hi ∧
      23 ≤ besideHeat.count ∧ 23 ≠ besideHeat.station ∧ 23 = fire.hi + 1) ∧
    ((peerOf s.pt 21).liveness = .live 9000000 ∧
      ((peerOf s.pt 21).status.map fun st => st.view.temp) = some (some 60) ∧
      21 ≠ s.station ∧ 21 + 1 = fire.lo) ∧
    (let cool : List Peer := [seen 21 2 0 59 0,
       { seen 21 2 0 0 0 with status := some ⟨⟨.quiet, 2, 0, 0, none, none⟩, none, []⟩ },
       { seen 21 2 0 0 0 with status := none }]
     (∀ p ∈ cool, (peerOf [p] 21).liveness = .live 9000000) ∧
     cool.map (fun p => (peerOf [p] 21).status.map fun st => st.view.temp) =
       [some (some 59), some none, none] ∧
     (∀ p ∈ cool, ∀ q ∈ [p], q.index ≠ 21 → q.liveness ≠ .silent)) := by decide +kernel

/-- The own section with a good claim and a bad one, and another section; a view of 16, and an own claim
whose settle timer runs. -/
theorem witness_ClaimReceivedEntersTheView :
    let f := frameOctets 24 (.claim 3 (entry24 false).claim)
    let bad := frameOctets 24 (.claim 3 ⟨.fs1, 2#8, ⟨2, 1, 0x24#32⟩⟩)
    let other := frameOctets 24 (.claim 4 (entry24 false).claim)
    let s := receiving f hearing23
    let settles := receiving f (settling23 [])
    let full := receiving f (settling23 ((List.range 16).map fun n => { entry25 false with station := 30 + n }))
    (s.li.rx = f :: [] ∧ classify s.count f = .claim ∧ s.sj.mode ≠ .configFault ∧
      natAt (frameBody f) 0 = s.sect ∧ readClaim s.count (frameBody f) = some (entry24 false).claim) ∧
    (classify s.count bad = .claim ∧ natAt (frameBody bad) 0 = s.sect ∧
      readClaim s.count (frameBody bad) = none) ∧
    (classify s.count other = .claim ∧ natAt (frameBody other) 0 ≠ s.sect) ∧
    full.cu.view.length = 16 ∧ s.li.tx.length < 8 ∧
    (settles.cu.own = .settling ownClaim (some 10000000) ∧
      (after .claimReceived settles).cu.own = settles.cu.own ∧
      ((after .claimReceived settles).cu.view.map ClaimEntry.late) = [true]) := by decide +kernel

theorem witness_WithdrawAndReleaseRemoveTheEntry :
    let f := frameOctets 24 (.withdraw 3 .fs4 2#8)
    let g := frameOctets 24 (.release 3 .fs1 2#8)
    let bad := [0x51#8, 0x18#8, 0x03#8, 0x03#8, 0x05#8, 0x02#8, 0x00#8, 0x00#8]
    let s := receiving f hearing23
    s.li.rx = f :: [] ∧ s.sj.mode ≠ .configFault ∧ classify s.count f = .withdraw ∧
    classify s.count g = .release ∧ natAt (frameBody f) 0 = s.sect ∧ natAt (frameBody f) 1 = 4 ∧
    natAt (frameBody g) 1 = 1 ∧ classify s.count bad = .withdraw ∧
    natAt (frameBody bad) 0 = s.sect ∧ natAt (frameBody bad) 1 = 5 := by decide +kernel

theorem witness_InvalidFrameRaisesLineErrors :
    let f := [0x12#8, 0x17#8, 0x00#8, 0x00#8, 0x00#8]
    let s := receiving f (ready 30)
    s.li.rx = f :: [] ∧ classify s.count f = .invalid ∧ s.sj.mode ≠ .configFault := by decide +kernel

/-- The own claim settles and its spacing timer runs, and goes on settling at a polling round. -/
theorem witness_ClaimPlacementAndSpacing_running :
    let s : State := { unsent23 with su := roundDue.su }
    exec .sensorRound s = .next (after .sensorRound s) ∧ s.cu.spacingDue ≠ none ∧
    Instr.sensorRound ≠ .claimSpacingExpiry ∧
    (after .sensorRound s).cu.own = .settling ownClaim none :=
  ⟨next_of_completes (by decide +kernel), by decide +kernel, by decide, by decide +kernel⟩

theorem witness_ClaimPlacementAndSpacing :
    let busy : State := { waiting23 with cu := { waiting23.cu with spacingDue := some 10000000 } }
    let quiet : State := { ready 23 with cu := { (ready 23).cu with spacingDue := some 10000000 } }
    (∀ s ∈ [busy, quiet], Settled s) ∧
    (∀ j, isStartWait (waiting23.slot j).st = true → slotNumber .fs1 ≤ slotNumber j) ∧
    (∀ k, isStartWait (quiet.slot k).st = false) ∧
    (waiting23.cu.own = .none ∧ waiting23.cu.spacingDue = none ∧ waiting23.cu.view.length < 2 ∧
      waiting23.sj.mode = .incident ∧ (governing waiting23).isSome = true ∧
      waiting23.fs.maintPending = false ∧ waiting23.tp.classRank = some (0, 0) ∧
      isStartWait (waiting23.slot .fs1).st = true ∧ waiting23.li.tx.length < 10 ∧
      busy.cu.spacingDue = some 10000000 ∧ waitingSlot busy = some .fs1 ∧
      quiet.cu.spacingDue = some 10000000) :=
  ⟨all_settled (by decide +kernel), fun j _ => by cases j <;> decide,
    fun k => by cases k <;> rfl, by decide +kernel⟩

/-- One claim ahead, and two. -/
theorem witness_SettleGrantsOrWithdraws :
    let one := settling23 [entry24 false]
    let two := settling23 [entry24 false, entry25 true]
    (∀ s ∈ [one, two], Settled s) ∧
    (one.sj.held = false ∧ one.cu.own = .settling ownClaim (some 10000000) ∧
      (one.slot ownClaim.slot).st = .startWait .towardA ∧
      (one.cu.view.filter fun e => !e.late || keyBetter e.claim.key ownClaim.key).length = 1 ∧
      (two.cu.view.filter fun e => !e.late || keyBetter e.claim.key ownClaim.key).length = 2 ∧
      two.sj.mode ≠ .configFault ∧ two.li.tx.length < 10 ∧
      (∀ x ∈ two.li.tx, claimNumber x.body ≠ some ownClaim.number)) :=
  ⟨all_settled (by decide +kernel), by decide +kernel⟩

/-- The CLAIM unsent, and sent: the slot trips, its motor runs, MAINT is asserted, and the incident ends. -/
theorem witness_SettleGrantsOrWithdraws_leaving :
    let y : TxFrame := ⟨.claim 3 ownClaim, 0⟩
    let claims (s : State) : State := { unsent23 with
      fs := s.fs, su := s.su, li := { unsent23.li with rx := s.li.rx, tx := [] ++ y :: [] } }
    let sent (s : State) : State := { s with li := { s.li with tx := [] } }
    let trips := claims (filtered .tripFb true (.startWait .towardA) (.run .towardA) unsent23)
    let runs := claims (filtered .runFb true (.startWait .towardA) (.run .towardA) unsent23)
    let visit := claims (pressed .maint true unsent23)
    let ends := claims (receiving (frameOctets 22 (.ending id22)) unsent23)
    (∀ s ∈ [trips, runs, visit, ends, sent trips, sent runs, sent visit, sent ends], Settled s) ∧
    (∀ s ∈ [trips, runs, visit, ends], s.cu.own = .settling ownClaim none ∧ s.sj.mode = .incident ∧
      s.cu.spacingDue ≠ none ∧ s.li.tx = [] ++ y :: [] ∧ (sent s).li.tx.length < 10 ∧
      claimNumber y.body = some ownClaim.number) ∧
    ((trips.slot .fs1).tripFb.due ≠ none ∧ (trips.slot .fs1).tripFb.pin = true ∧
      (runs.slot .fs1).runFb.due ≠ none ∧ (runs.slot .fs1).runFb.pin = true ∧
      visit.su.maint.due ≠ none ∧ visit.su.maint.pin = true ∧
      (∀ k ∈ allSlots, isStartingOrCoasting (visit.slot k).st = false) ∧
      (let f := frameOctets 22 (.ending id22)
       ends.li.rx = f :: [] ∧ classify ends.count f = .ending ∧
        readEnd ends.count (frameBody f) = some id22 ∧
        ends.iu.records.map bare = [⟨id22, .active fire none⟩])) :=
  ⟨all_settled (by decide +kernel), by decide +kernel, by decide +kernel⟩

theorem witness_ClaimRenewalAndEntryExpiry :
    let s : State :=
      { starting23 with cu := { starting23.cu with own := .granted ownClaim (some 10000000) } }
    Settled s ∧ (s.cu.own = .granted ownClaim (some 10000000) ∧ s.sj.mode ≠ .configFault ∧
      s.li.tx.length < 10 ∧
      (hearing23.cu.view.find? fun x => x.station == 24) = some (entry24 false)) :=
  ⟨settled_of_check (by decide +kernel), by decide +kernel⟩

/-- With no STATUS waiting, and with one whose place is taken; with and without an early request; a command
after which the octet of health differs, and one after which nothing reported does. -/
theorem witness_StatusTimersPlaceAStatus :
    let s : State := { ready 30 with ba := ⟨some 10000000, some 10000000, true⟩ }
    let idle : State := { ready 30 with ba := ⟨some 11000000, some 10000000, false⟩ }
    let x : TxFrame := ⟨statusOf 0x23#32 true 29 5#8, 3⟩
    let t : State := { s with li := { s.li with tx := [⟨.ending id22, 0⟩, x] } }
    let raised : State :=
      { ready 30 with health := { (ready 30).health with lineErrors := some 10000000 } }
    (∀ r ∈ [s, t, idle], Settled r) ∧
    (exec (.healthFlagExpiry .lineErrors) raised =
        .next (after (.healthFlagExpiry .lineErrors) raised) ∧
      exec .sensorRound roundDue = .next (after .sensorRound roundDue)) ∧
    (healthOctet (after (.healthFlagExpiry .lineErrors) raised) ≠ healthOctet raised ∧
      (after (.healthFlagExpiry .lineErrors) raised).sj.mode = .quiet ∧
      (after .sensorRound roundDue).sj.mode = .quiet ∧
      ownStatus (after .sensorRound roundDue) = ownStatus roundDue ∧
      s.ba = ⟨some 10000000, some 10000000, true⟩ ∧ s.sj.mode ≠ .configFault ∧
      (∀ y ∈ s.li.tx, bodyClass y.body ≠ 2) ∧ s.li.tx.length < 10 ∧
      t.li.tx = [⟨.ending id22, 0⟩] ++ x :: [] ∧ bodyClass (Body.ending id22) ≠ 2 ∧
      bodyClass x.body = 2 ∧ idle.ba.spacingDue = some 10000000 ∧ idle.ba.early = false) :=
  ⟨all_settled (by decide +kernel),
    ⟨next_of_completes (by decide +kernel), next_of_completes (by decide +kernel)⟩,
    by decide +kernel⟩

/-- CMD_PUSH_A is released, debounced, with the lamp lit and its timer over, and with its timer running. -/
theorem witness_FlagLampAndFaultOutputTimers_release :
    let s (due : Option Time) : State := pressed .pushA false
      { ready 30 with no := { (ready 30).no with conflict := ⟨true, due⟩ } }
    (∀ u ∈ [s none, s (some 11000000)], Settled u) ∧
    ((s none).su.pushA.due = some 10000000 ∧ (s none).su.pushA.pin = false ∧
      (s none).su.pushB.level = false ∧ (s none).no.conflict = ⟨true, none⟩ ∧
      (s (some 11000000)).no.conflict.due ≠ none) :=
  ⟨all_settled (by decide +kernel), by decide +kernel⟩

theorem witness_FlagLampAndFaultOutputTimers :
    let h : State :=
      { ready 30 with health := { (ready 30).health with duplicateIndex := some 10000000 } }
    let s : State := { ready 30 with
      no := ⟨true, some 10000000, none, ⟨true, some 10000000⟩, .all ⟨true, some 10000000⟩⟩
      fs := { (ready 30).fs with slots := ⟨slotIn (.lockedOut .trip), slotIn (.lockedOut .stuck),
        slotIn (.tripped none), slotIn .absent⟩ } }
    let t : State := { s with no := { s.no with acceptDue := none, refusedDue := some 10000000 } }
    (∀ r ∈ [h, s, t], Settled r) ∧
    (h.health.get .duplicateIndex = some 10000000 ∧ h.li.tx.length < 10 ∧
      s.no.acceptDue = some 10000000 ∧ t.no.refusedDue = some 10000000 ∧
      s.no.conflict.due = some 10000000 ∧ s.no.flash.get .fs1 = ⟨true, some 10000000⟩ ∧
      (s.slot .fs1).st = .lockedOut .trip ∧ (s.slot .fs2).st = .lockedOut .stuck ∧
      (s.slot .fs3).st = .tripped none) :=
  ⟨all_settled (by decide +kernel), by decide +kernel⟩

/-- Below, inside and above the span, and with no governing incident; a frame on the line at its first and
its last bit; a slot that trips, its output dark before. -/
theorem witness_OutputsFollowTheState :
    let s := sending (.ending id22) (ready 41)
    let c := Instr.slotInputFilterExpiry .fs1 .tripFb
    let trips := filtered .tripFb true (.running .towardA) .off { ready 23 with pending := [c] }
    ((burning 21 none).sj.held = false ∧ (burning 21 none).sj.mode ≠ .configFault ∧
      (governing (burning 21 none)).isSome = true ∧ (burning 21 none).station < fire.lo ∧
      (burning 22 none).station = fire.lo ∧ fire.hi < (burning 23 none).station ∧
      governing (ready 23) = none) ∧
    ((frameOctets s.station (.ending id22))[0]? = some 0x31#8 ∧ s.bit = 4 ∧
      ({ s with now := 9999000 } : State).now - 9999000 = 0 ∧
      (frameOctets s.station (.ending id22)).length = 7) ∧
    (let x : Transaction := ⟨.heat, 10000000⟩
     let polls : State := polled .heat { ready 23 with now := 9999760 }
     polls.su.transaction = some x ∧ polls.now < x.ends ∧ x.ends - 240 + 10 * 0 ≤ polls.now ∧
      polls.now < x.ends - 240 + 10 * 0 + 5 ∧ (ready 23).su.transaction = none) ∧
    (∀ k, trips.no.flash.get k = ⟨false, none⟩) ∧ FlashShows trips ∧ HeldInReset trips ∧
    exec c trips = .next (after c trips) ∧ (∃ u, step trips = .next u) ∧
    patternOf (trips.slot .fs1).st ≠ patternOf ((after c trips).slot .fs1).st :=
  ⟨by decide +kernel, by decide +kernel, by decide +kernel, fun k => by cases k <;> rfl,
    fun _ k => by cases k <;> rfl, held_of_released rfl, next_of_completes (by decide +kernel),
    ⟨_, rfl⟩, by decide +kernel⟩

/-- A first try with nothing assembled, and with a frame in assembly while LINE_ERRORS reads 1, while the
spacing timer runs, with no STATUS waiting and with one; a send of another frame and of the own claim's. -/
theorem witness_SendStartAndSuccess :
    let s : State := { ready 41 with
      li := { (ready 41).li with tx := [⟨.ending id22, 0⟩], idleSince := 10000000 } }
    let cut : State := { s with li := { s.li with assembly := [0x11#8], synced := true } }
    let raised : State := { cut with health := { cut.health with lineErrors := some 20000000 } }
    let spaced : State := { cut with ba := { cut.ba with spacingDue := some 10050000 } }
    let y : TxFrame := ⟨statusOf 0x23#32 true 29 5#8, 3⟩
    let waits : State := { cut with li := { cut.li with tx := [⟨.ending id22, 0⟩, y] } }
    let u := sending (.ending id22) (ready 23)
    let v := sending (.claim 3 ownClaim) unsent23
    (∀ r ∈ [s, cut, raised, spaced, waits, u, v], Settled r) ∧
    (s.li.tx = ⟨.ending id22, 0⟩ :: [] ∧ s.li.sending = none ∧ s.sj.held = false ∧
      s.sj.mode = .quiet ∧ s.li.assembly = [] ∧ cut.li.assembly ≠ [] ∧
      cut.health.lineErrors = none ∧ cut.ba.spacingDue = none ∧
      waits.li.tx = ⟨.ending id22, 0⟩ :: ([] ++ y :: []) ∧ bodyClass y.body = 2) ∧
    (u.li.sending = some ⟨⟨.ending id22, 0⟩, 9999000⟩ ∧ u.cu.own = .none ∧
      v.li.sending = some ⟨⟨.claim 3 ownClaim, 0⟩, 9999000⟩ ∧ v.cu.own = .settling ownClaim none ∧
      claimNumber (.claim 3 ownClaim) = some ownClaim.number) :=
  ⟨all_settled (by decide +kernel), by decide +kernel⟩

/-- A STATUS at its eighth attempt, a frame whose successor waits, a CLAIM whose WITHDRAW waits, one that
goes back to the queue, a SETTLING claim's that finds ten frames waiting, and one in CONFIG_FAULT. -/
theorem witness_CollisionReturnsTheFrame :
    let s := sending (.ending id22) (ready 41)
    let queue (q : List TxFrame) (t : State) : State := { t with li := { t.li with tx := q } }
    let w := queue [⟨.withdraw 3 .fs1 5#8, 0⟩] (sending (.claim 3 ownClaim) (ready 23))
    let r := queue [⟨.incident id22 none fire, 0⟩] s
    let l : State := { s with li := { s.li with
      sending := some ⟨⟨statusOf 0x23#32 true 29 5#8, 7⟩, 9999000⟩ } }
    let full := queue ((List.range 10).map fun n => ⟨.ending ⟨n + 1, 0#4⟩, 0⟩)
      (sending (.claim 3 ownClaim) unsent23)
    let fault : State := { s with sj := { s.sj with mode := .configFault } }
    let ten (t : State) := queue ((List.range 10).map fun n => ⟨.ending ⟨n + 1, 0#4⟩, 0⟩) t
    let y : TxFrame := ⟨statusOf 0x23#32 true 29 5#8, 3⟩
    let raised : State := { l with health := { l.health with txCongested := some 20000000 } }
    let spaced : State := { l with ba := { l.ba with spacingDue := some 10050000 } }
    (∀ x ∈ [s, w, r, l, full, fault, raised, spaced, queue [y] l, ten l, ten s], Settled x) ∧
    (raised.health.txCongested ≠ none ∧ l.health.txCongested = none ∧ l.sj.mode = .quiet ∧
      spaced.ba.spacingDue ≠ none ∧ l.ba.spacingDue = none ∧ l.li.tx = [] ∧
      (queue [y] l).li.tx = [] ++ y :: [] ∧ bodyClass y.body = 2 ∧ (ten l).li.tx.length = 10 ∧
      (∀ z ∈ (ten l).li.tx, bodyClass z.body ≠ 2) ∧ (ten s).cu.own = .none ∧
      (∀ z ∈ (ten s).li.tx, takesPlaceOf z.body (.ending id22) = false)) ∧
    (s.li.sending = some ⟨⟨.ending id22, 0⟩, 9999000⟩ ∧
      (frameOctets s.station (.ending id22))[1]? = some 0x29#8 ∧
      characterBits 0x21#8 ≠ characterBits 0x29#8 ∧ s.sj.mode ≠ .configFault ∧
      bodyClass (Body.ending id22) ≠ 2 ∧ s.li.tx = []) ∧
    (r.li.tx = [] ++ ⟨.incident id22 none fire, 0⟩ :: [] ∧
      takesPlaceOf (.incident id22 none fire) (.ending id22) = true) ∧
    (w.li.sending = some ⟨⟨.claim 3 ownClaim, 0⟩, 9999000⟩ ∧
      (∀ y ∈ w.li.tx, takesPlaceOf y.body (.claim 3 ownClaim) = false) ∧
      claimNumber (.claim 3 ownClaim) = some 5#8 ∧
      w.li.tx = [] ++ ⟨.withdraw 3 .fs1 5#8, 0⟩ :: [] ∧
      isWithdrawNo 5#8 ⟨.withdraw 3 .fs1 5#8, 0⟩ = true) ∧
    (l.li.sending = some ⟨⟨statusOf 0x23#32 true 29 5#8, 7⟩, 9999000⟩ ∧
      bodyClass (statusOf 0x23#32 true 29 5#8) = 2 ∧ 8 ≤ 7 + 1 ∧
      (frameOctets l.station (statusOf 0x23#32 true 29 5#8))[1]? = some 0x29#8) ∧
    (10 ≤ full.li.tx.length ∧ full.cu.own = .settling ownClaim none ∧
      (∀ y ∈ full.li.tx, takesPlaceOf y.body (.claim 3 ownClaim) = false ∧
        isWithdrawNo 5#8 y = false) ∧
      (frameOctets full.station (.claim 3 ownClaim))[1]? = some 0x17#8) ∧
    fault.sj.mode = .configFault :=
  ⟨all_settled (by decide +kernel), by decide +kernel⟩

theorem witness_ReceiverTakesCharacters :
    let s := ready 30
    let f := frameOctets 22 (.ending id22)
    let t := assembled (f.take 5) s
    let meets : State := { ready 41 with
      li := { (ready 41).li with tx := [⟨.ending id22, 0⟩], idleSince := 9999920 } }
    (∀ x ∈ [s, t], Settled x ∧ x.sj.held = false ∧ x.li.sending = none ∧ sendDue x = none) ∧
    (meets.li.tx = ⟨.ending id22, 0⟩ :: [] ∧ sendDue meets = some 10000000 ∧
      10000000 ≤ meets.now) ∧
    (s.li.synced = false ∧ t.li.synced = true ∧
      frameLength (t.li.assembly ++ [octetAt f 5]) ≤ 120 ∧
      t.li.assembly.length + 1 < 5 + frameLength (t.li.assembly ++ [octetAt f 5]) ∧
      (assembled [0x21#8] s).li.assembly.length < 2) :=
  ⟨fun x h => ⟨all_settled (by decide +kernel) x h, by revert x; decide +kernel⟩, by decide +kernel⟩

/-- Room for one frame and for none; a bad stop bit, a length of 121 and a bad CRC. -/
theorem witness_FramesArriveOrAreDiscarded :
    let f := frameOctets 22 (.ending id22)
    let s := assembled (f.take 6) (ready 30)
    let full : State := { s with li := { s.li with rx := List.replicate 16 f } }
    let long := assembled [0x21#8, 0x16#8] (ready 30)
    (∀ x ∈ [s, full], Settled x) ∧
    (s.sj.held = false ∧ s.li.sending = none ∧ s.li.synced = true ∧ sendDue s = none ∧
      sendDue full = none ∧ sendDue long = none ∧ f = s.li.assembly ++ [octetAt f 6] ∧ frameLength f ≤ 120 ∧ f.length = 5 + frameLength f ∧
      f.drop (3 + frameLength f) = octets16 (crc (f.take (3 + frameLength f))) ∧
      s.li.rx.length < 16 ∧ 16 ≤ full.li.rx.length) ∧
    (3 ≤ (long.li.assembly ++ [121#8]).length ∧ 120 < frameLength (long.li.assembly ++ [121#8])) ∧
    (let g := s.li.assembly ++ [octetAt f 6 + 1#8]
     g.length = 5 + frameLength g ∧
      g.drop (3 + frameLength g) ≠ octets16 (crc (g.take (3 + frameLength g)))) ∧
    s.li.assembly ≠ [] :=
  ⟨all_settled (by decide +kernel), by decide +kernel⟩

/-- A run with the round due, which steps to a next state. -/
theorem witness_StepKeepsTheStateSettled :
    let s : State := { roundDue with pending := [.sensorRound] }
    Settled s ∧ HeldInReset s ∧ step s = .next (after .sensorRound roundDue) :=
  ⟨settled_of_check (by decide +kernel), held_of_released rfl, rfl⟩

/-- A grant, by which a slot comes to be STARTING. -/
theorem witness_StepKeepsStartsGranted :
    let s : State := { settling23 [] with pending := [.settleExpiry] }
    StartsGranted s ∧ HeldInReset s ∧ (∃ u, step s = .next u) ∧
    StartsGranted failing23 ∧ isStarting (failing23.slot .fs1).st = true := by
  refine ⟨?_, held_of_released rfl, ⟨_, rfl⟩, ?_, rfl⟩
  · intro k h; cases k <;> exact absurd h (by decide +kernel)
  · intro k h
    cases k
    · exact ⟨ownClaim, none, rfl, rfl⟩
    all_goals exact absurd h (by decide +kernel)

/-- A station in CONFIG_FAULT, before and at an external reset. -/
theorem witness_ConfigFaultHoldsUntilReset :
    let s : State := { ready 23 with
      pending := [.externalReset], sj := { (ready 23).sj with mode := .configFault } }
    FaultQuiet s ∧ HeldInReset s ∧ s.sj.mode = .configFault ∧ (∃ u, step s = .next u) := by
  refine ⟨fun _ => ⟨rfl, rfl, rfl, rfl, rfl, rfl, ?_, ?_, ?_, rfl, rfl, rfl, ⟨rfl, rfl, rfl⟩⟩,
    held_of_released rfl, rfl, ⟨_, rfl⟩⟩
  · intro k _; cases k <;> rfl
  · intro k; cases k <;> rfl
  · intro c due h; cases h

/-- A running station within every capacity, and a step. -/
theorem witness_StepKeepsTheCapacities :
    let s : State := { ready 23 with pending := [.sensorRound] }
    Bounded s ∧ OneLamp s ∧ (∃ u, step s = .next u) :=
  ⟨bounded_of_check (by decide +kernel), Or.inl rfl, ⟨_, rfl⟩⟩

/-- An END, the WITHDRAW of a claim that is over, the own claim's CLAIM and a STATUS wait; two claims have been
heard, the second at this very moment; and a step. -/
theorem witness_StepKeepsTheCapacities_queue :
    let s : State := { unsent23 with
      pending := [.sensorRound]
      cu := { unsent23.cu with view := [entry24 false, { entry25 true with heardAt := 10000000 }] }
      li := { unsent23.li with tx := [⟨.ending ⟨30, 0#4⟩, 0⟩, ⟨.withdraw 3 .fs1 4#8, 1⟩,
        ⟨.claim 3 ownClaim, 0⟩, ⟨statusOf 0x23#32 true 29 5#8, 0⟩] } }
    QueueForm s ∧ ViewForm s ∧ FaultQuiet s ∧ ClaimFrames s ∧ NextNumberFree s ∧
      ∃ u, step s = .next u := by
  refine ⟨⟨by decide +kernel, by decide +kernel, by decide +kernel⟩,
    ⟨by decide +kernel, by decide +kernel, by decide +kernel⟩, fun h => (by cases h),
    ⟨⟨[.withdraw 3 .fs1 4#8], [.claim 3 ownClaim], by decide +kernel, by decide, by decide +kernel,
      by decide, by decide +kernel, fun b h => (by cases h)⟩, fun b h => (by cases h),
      fun c h => ?_, fun c t h => (by rcases h with h | h <;> cases h), fun c h => (by cases h)⟩,
    ⟨by decide +kernel, fun b h => (by cases h), by decide +kernel⟩, ⟨_, rfl⟩⟩
  cases h
  exact Or.inr (Or.inl ⟨.claim 3 ownClaim, by decide +kernel, rfl⟩)

/-- A list with a link, and a step. -/
theorem witness_StepKeepsTheChains :
    let s : State := { burning 30 none with
      pending := [.sensorRound]
      iu := { (burning 30 none).iu with
        records := [⟨id22, .active fire none⟩, ⟨⟨23, 0#4⟩, .absorbed id22⟩] } }
    Bounded s ∧ ChainsEnd s ∧ (∃ u, step s = .next u) :=
  ⟨bounded_of_check (by decide +kernel), chains_of_check (by decide +kernel), ⟨_, rfl⟩⟩

/-- A grant asserts a drive that was not asserted, and so does the release of MAINT where FS1 runs in LOCAL. -/
theorem witness_DrivesAreNeverExchanged :
    let s := settling23 []
    let m : State := pressed .maint false (withSlot .fs1
      { slotIn .localControl with runFb := ⟨true, true, true, none⟩ }
      { pace23 with sj := { pace23.sj with mode := .maintenance } })
    HeldInReset s ∧ exec .settleExpiry s = .next (after .settleExpiry s) ∧
    (driveOut s .fs1 = none ∧ driveOut (after .settleExpiry s) .fs1 = some .towardA ∧
      driveOut s .fs2 = some .towardA) ∧
    HeldInReset m ∧ exec (.debounceExpiry .maint) m = .next (after (.debounceExpiry .maint) m) ∧
    (driveOut m .fs1 = none ∧ driveOut (after (.debounceExpiry .maint) m) .fs1 = some .towardA) :=
  ⟨held_of_released rfl, next_of_completes (by decide +kernel), by decide +kernel,
    held_of_released rfl, next_of_completes (by decide +kernel), by decide +kernel⟩

theorem witness_LockoutsStand :
    exec .sensorRound worn = .next (after .sensorRound worn) ∧
    (worn.slot .fs1).st = .lockedOut .trip ∧ (Instr.sensorRound ≠ .powerOnReset) ∧
    (∀ w, Instr.sensorRound ≠ .resetRelease w) ∧
    ¬ (Instr.sensorRound = .debounceExpiry .maint ∧ worn.sj.mode = .maintenance) :=
  ⟨rfl, rfl, by decide, (by intro w h; cases h), by decide +kernel⟩

theorem witness_CommandsKeepStrapsSerialAndQueue :
    exec .sensorRound roundDue = .next (after .sensorRound roundDue) ∧
    (∀ w, Instr.sensorRound ≠ .resetRelease w) := ⟨rfl, by intro w h; cases h⟩

/-- A record whose span grows, the next own id not held, and an ENDED record beside it that stays. -/
theorem witness_SpansOnlyGrow :
    let s : State := { besideHeat with iu := { besideHeat.iu with
      records := besideHeat.iu.records ++ [⟨⟨30, 0#4⟩, .ended 0 20000000⟩] } }
    let u := after (.peerSilent 23) s
    exec (.peerSilent 23) s = .next u ∧ Bounded s ∧ ChainsEnd s ∧
    (isReset (.peerSilent 23) = false ∧ findRec s.iu.records ⟨s.station, s.iu.counter⟩ = none ∧
      s.iu.records.map Rec.id = u.iu.records.map Rec.id ∧ s.iu.records.length < 6) :=
  ⟨next_of_completes (by decide +kernel), bounded_of_check (by decide +kernel),
    chains_of_check (by decide +kernel), by decide +kernel⟩

/-- One bulletin of each kind that a station of a bore of 60 can send. -/
theorem witness_BulletinsReadBackAsSent :
    (2 ≤ 60 ∧ 60 ≤ 120 ∧ 1 ≤ 60 ∧ 60 ≤ 60) ∧
    statusFits 60 ⟨⟨.incident, 2, 2, 0, some 45, some (-12)⟩,
      some ⟨id22, digest id22 fire, 29, 5#8, true⟩, [⟨id22, .active⟩]⟩ = true ∧
    idFits 60 ⟨60, 15#4⟩ = true ∧ contentFits 60 ⟨1, 60, .towardB, 15, some 60⟩ = true ∧
    keyLt id22 ⟨60, 15#4⟩ = true ∧ claimFits 60 ⟨.fs4, 255#8, ⟨1, 59, 1#32⟩⟩ = true := by
  decide +kernel

end Sys2Proof.Tests
end

section
/-! PROOFS. What a step can do, said once: the forms in which a command answers, and how an invariant of every
command is one of every step. -/

namespace Sys2Proof.Machine

/-! ## The forms of an answer -/

/-- What the end of JOINING leaves before MAINT is taken (R170, phases 1 to 4). -/
def joined (t : Time) (s : State) : State := placeEarly (follow s (leaveJoining (reachTime t s)))

/-- The forms in which a command answers: a reset, a release, a pin, no event at all, the end of JOINING, or
an own effect that is closed. -/
inductive Answers : Instr → State → State → Prop where
  | powerOn (s : State) : Answers .powerOnReset s (holdReset false s)
  | external (s : State) : Answers .externalReset s (holdReset true s)
  | release (w : BitVec 28) (s : State) (held : s.sj.held = true) :
      Answers (.resetRelease w) s (releaseReset w s)
  | level (n : Input) (v : Bool) (s : State) : Answers (.inputLevelChange n v) s
      (setSu (s.su.setInput n (inputChanged s.sj.held s.now v (s.su.input n))) s)
  | pin (k : SlotNo) (n : SlotInput) (v : Bool) (p : SlotPin) (s : State)
      (inReset : s.sj.held = true → p = pinOnly v ((s.slot k).input n)) :
      Answers (.slotInputChange k n v) s (setSlot k ((s.slot k).setInput n p) s)
  | idle (i : Instr) (s : State) : Answers i s s
  | join (t : Time) (s : State) (due : s.sj.joinDue = some t) :
      Answers .joinTimerExpiry s (closeEvent (joined t s) (maintAtJoin (joined t s)))
  | event (i : Instr) (s x : State) (plain : isPlain i = false) (join : i ≠ .joinTimerExpiry)
      (own : effect i s = some x) : Answers i s (closeEvent s x)

theorem exec_answers {i : Instr} {s u : State} (h : exec i s = .next u) : Answers i s u := by
  by_cases hp : isPlain i = true
  · cases i with
    | powerOnReset => cases h; exact .powerOn s
    | externalReset => cases h; exact .external s
    | resetRelease w =>
      simp only [exec, execResetRelease] at h
      split at h
      · rename_i hh; cases h; exact .release w s hh
      · cases h; exact .idle _ s
    | inputLevelChange n v => cases h; exact .level n v s
    | slotInputChange k n v =>
      cases h
      exact .pin k n v _ s (fun hh => by simp [hh])
    | _ => cases hp
  · have hp : isPlain i = false := by simpa using hp
    by_cases hj : i = .joinTimerExpiry
    · subst hj
      rcases join_next h with ⟨-, rfl⟩ | ⟨t, ht, rfl⟩
      · exact .idle _ _
      · exact .join t s ht
    · rcases exec_effect_next hp hj h with ⟨-, rfl⟩ | ⟨x, hx, rfl⟩
      · exact .idle _ _
      · exact .event i s x hp hj hx

/-- A step is a command, at the front of the queue or due on an empty one, or a microsecond that passes. -/
theorem step_next {s u : State} (h : step s = .next u) :
    (∃ c rest, exec c { s with pending := rest } = .next u) ∨ (∃ c, exec c s = .next u) ∨
      u = clockTick s := by
  unfold step at h
  split at h
  · exact .inl ⟨_, _, h⟩
  · unfold idle at h
    split at h
    · exact .inr (.inl ⟨_, h⟩)
    · cases h; exact .inr (.inr rfl)

/-- What every command keeps, and the clock and the queue of commands do not touch, every step keeps. -/
theorem step_keeps {P : State → Prop} (hq : ∀ s rest, P s → P { s with pending := rest })
    (ht : ∀ s, P s → P (clockTick s)) (he : ∀ i s u, P s → Answers i s u → P u) {s u : State}
    (hs : P s) (h : step s = .next u) : P u := by
  rcases step_next h with ⟨c, rest, h⟩ | ⟨c, h⟩ | rfl
  · exact he c _ u (hq s rest hs) (exec_answers h)
  · exact he c s u hs (exec_answers h)
  · exact ht s hs

/-! ## A settled state, and the reset -/

/-- What `Settled` looks at: the mode, the list, the slots' states, the pending entry, the Claim Unit and the
class and rank. -/
theorem Settled.of_same {s u : State} (h : Settled s) (hj : u.sj = s.sj) (hr : u.iu = s.iu)
    (hst : ∀ k, (u.slot k).st = (s.slot k).st) (he : u.fs.maintPending = s.fs.maintPending)
    (hc : u.cu = s.cu) (ht : u.tp = s.tp) : Settled u where
  modeByList := by
    have := h.modeByList
    unfold ModeByList at *
    rw [hj, anyActive_congr (s := s) (by rw [hr])]; exact this
  claimStands := by
    have := h.claimStands
    unfold ClaimStands at *
    rw [hc, hj]
    cases ho : s.cu.own <;> simp only [ho] at this ⊢
    · rw [hst]; exact this
    · rw [hst]; exact this
  noClaimDue := by
    have hw : waitingSlot u = waitingSlot s := by
      unfold waitingSlot; congr 1; funext k; rw [hst]
    have := h.noClaimDue
    unfold claimTest at *
    rw [hc, hw, ht, governing_congr (s := s) (by rw [hj]) (by rw [hr]), hj, he]; exact this
  noEntryDue := by
    have := h.noEntryDue
    have ha : (u.fs.slots.any fun sl => isStartingOrCoasting sl.st) =
        s.fs.slots.any fun sl => isStartingOrCoasting sl.st := by
      have h1 := hst .fs1; have h2 := hst .fs2; have h3 := hst .fs3; have h4 := hst .fs4
      simp only [State.slot, Quad.get] at h1 h2 h3 h4
      simp only [Quad.any, h1, h2, h3, h4]
    unfold maintReady at *
    rw [he, hj, ha]; exact this

/-- With no own claim, in a mode where neither a claim nor an entry is made, nothing is left to follow. -/
theorem settled_of_resting {s : State} (hm : s.sj.mode = .joining ∨ s.sj.mode = .configFault)
    (ho : s.cu.own = .none) : Settled s where
  modeByList := by rcases hm with h | h <;> simp [ModeByList, h]
  claimStands := claimStands_of_none ho
  noClaimDue := by
    cases hc : claimTest s with
    | none => rfl
    | some x =>
      have := (claimTest_some (k := x.1) (a := x.2.1) (b := x.2.2) hc).2.2.2.1
      rcases hm with h | h <;> rw [h] at this <;> cases this
  noEntryDue := by rcases hm with h | h <;> simp [maintReady, h]

/-- Holding a slot in reset twice is holding it once (R87). -/
theorem slotHeld_twice (keep : Bool) (sl : Slot) :
    slotHeld true (slotHeld keep sl) = slotHeld keep sl := by
  unfold slotHeld pinReset
  cases sl.st <;> cases keep <;> rfl

/-- A pin that changes while a reset holds the part leaves its slot as held (R61, R87). -/
theorem slotHeld_pinOnly (n : SlotInput) (v : Bool) {sl : Slot} (h : slotHeld true sl = sl) :
    slotHeld true (sl.setInput n (pinOnly v (sl.input n))) =
      sl.setInput n (pinOnly v (sl.input n)) := by
  rw [← h]
  unfold slotHeld pinReset pinOnly
  cases sl.st <;> cases n <;> rfl

theorem heldInReset_holdReset (keep : Bool) (s : State) : HeldInReset (holdReset keep s) := by
  intro _
  have hs : (holdReset true (holdReset keep s)).fs.slots = (holdReset keep s).fs.slots :=
    Quad.ext_get fun k => by simp [holdReset, slotHeld_twice]
  unfold holdReset at hs ⊢
  simp only [State.mk.injEq, Fs.mk.injEq, true_and, and_true]
  exact ⟨hs, rfl⟩

theorem HeldInReset.slot {s : State} (h : HeldInReset s) (hh : s.sj.held = true) (k : SlotNo) :
    slotHeld true (s.slot k) = s.slot k := ((h.nothingRuns hh).slot k).symm

theorem heldInReset_of_not_held {s : State} (h : s.sj.held = false) : HeldInReset s := by
  intro hh; rw [h] at hh; cases hh

/-- In reset a niche input's pin changes and nothing is debounced (R133). -/
theorem inputChanged_reset (now : Time) (v : Bool) (d : Debounced) :
    inputChanged true now v (inputReset d) = inputReset ⟨v, false, none⟩ := by
  unfold inputChanged inputReset
  split
  · rename_i h; rw [h]
  · simp

/-- A niche input's pin that changes while a reset holds the part leaves it as held (R133). -/
theorem heldInReset_level (n : Input) (v : Bool) {s : State} (h : HeldInReset s) :
    HeldInReset (setSu (s.su.setInput n (inputChanged s.sj.held s.now v (s.su.input n))) s) := by
  intro hh
  have hh : s.sj.held = true := hh
  have e := h hh
  have hd : s.su.input n = inputReset (s.su.input n) := by
    conv_lhs => rw [← e]
    cases n <;> rfl
  have hr (d : Debounced) : holdReset true (setSu (s.su.setInput n (inputReset d)) s) =
      setSu ((holdReset true s).su.setInput n (inputReset d)) (holdReset true s) := by
    cases n <;> rfl
  rw [hh, hd, inputChanged_reset, hr, e]

/-- A slot's pin that changes while a reset holds the part leaves it as held (R61). -/
theorem heldInReset_pin (k : SlotNo) (n : SlotInput) (v : Bool) {s : State} (h : HeldInReset s)
    (hh : s.sj.held = true) :
    HeldInReset (setSlot k ((s.slot k).setInput n (pinOnly v ((s.slot k).input n))) s) := by
  intro _
  have e := h hh
  have hs : (holdReset true (setSlot k ((s.slot k).setInput n (pinOnly v ((s.slot k).input n))) s)).fs.slots =
      s.fs.slots.set k ((s.slot k).setInput n (pinOnly v ((s.slot k).input n))) := by
    apply Quad.ext_get
    intro j
    by_cases hj : j = k
    · subst hj
      simp only [holdReset, setSlot_fs_slots, Quad.get_map, Quad.get_set_same]
      exact slotHeld_pinOnly n v (h.slot hh _)
    · simp only [holdReset, setSlot_fs_slots, Quad.get_map, Quad.get_set_ne _ _ hj]
      exact h.slot hh j
  have hr : holdReset true (setSlot k ((s.slot k).setInput n (pinOnly v ((s.slot k).input n))) s) =
      { holdReset true s with fs := { (holdReset true s).fs with
        slots := s.fs.slots.set k ((s.slot k).setInput n (pinOnly v ((s.slot k).input n))) } } := by
    rw [← hs]; rfl
  rw [hr, e]; rfl

/-- The state of a slot stands when one of its pins changes. -/
@[simp] theorem Slot.setInput_st (sl : Slot) (n : SlotInput) (p : SlotPin) :
    (sl.setInput n p).st = sl.st := by cases n <;> rfl

theorem setSlot_setInput_st (k j : SlotNo) (n : SlotInput) (p : SlotPin) (s : State) :
    ((setSlot k ((s.slot k).setInput n p) s).slot j).st = (s.slot j).st := by
  by_cases hj : j = k
  · subst hj; rw [setSlot_slot_same]; simp
  · rw [setSlot_slot_ne _ _ hj]

/-- An event leaves an unheld part unheld. -/
theorem closes_held {s x : State} {i : Instr} (b : State) (own : effect i s = some x) :
    (closeEvent b x).sj.held = s.sj.held :=
  (closes_closeEvent b x).ground.held.trans (ground_effect own).held

/-- While a reset holds the part no command has an effect of its own (R168). -/
theorem HeldInReset.no_effect {s x : State} {i : Instr} (h : HeldInReset s) (plain : isPlain i = false)
    (join : i ≠ .joinTimerExpiry) (own : effect i s = some x) (hh : s.sj.held = true) :
    closeEvent s x = s := by
  have e := exec_held h hh plain
  rw [exec_effect i s plain join, own] at e
  simpa [closed] using e

theorem settled_answers {i : Instr} {s u : State} (hs : Settled s ∧ HeldInReset s)
    (h : Answers i s u) : Settled u ∧ HeldInReset u := by
  obtain ⟨st, hr⟩ := hs
  cases h with
  | powerOn => exact ⟨settled_of_resting (.inl rfl) rfl, heldInReset_holdReset _ s⟩
  | external => exact ⟨settled_of_resting (.inl rfl) rfl, heldInReset_holdReset _ s⟩
  | release w _ held =>
    refine ⟨settled_of_resting ?_ (hr.nothingRuns held).own, heldInReset_of_not_held rfl⟩
    change (if strapsValid w = true then Mode.joining else .configFault) = _ ∨
      (if strapsValid w = true then Mode.joining else .configFault) = _
    split
    · exact .inl rfl
    · exact .inr rfl
  | level n v => exact ⟨st.of_same rfl rfl (fun _ => rfl) rfl rfl rfl, heldInReset_level n v hr⟩
  | pin k n v p _ inReset =>
    refine ⟨st.of_same rfl rfl (fun j => setSlot_setInput_st k j n p s) rfl rfl rfl, ?_⟩
    cases hh : s.sj.held with
    | false => exact heldInReset_of_not_held hh
    | true => rw [inReset hh]; exact heldInReset_pin k n v hr hh
  | idle => exact ⟨st, hr⟩
  | join t _ due =>
    refine ⟨settled_closeEvent _ _, heldInReset_of_not_held ?_⟩
    have hh : s.sj.held = false := by
      cases hh : s.sj.held with
      | false => rfl
      | true => rw [(hr.nothingRuns hh).join] at due; cases due
    have g : exec .joinTimerExpiry s = .next (closeEvent (joined t s) (maintAtJoin (joined t s))) := by
      simp only [exec, execJoinTimerExpiry, due]; rfl
    rw [(ground_exec rfl g).held, hh]
  | event _ _ x plain join own =>
    refine ⟨settled_closeEvent _ _, ?_⟩
    cases hh : s.sj.held with
    | false => exact heldInReset_of_not_held ((closes_held s own).trans hh)
    | true => rw [hr.no_effect plain join own hh]; exact hr

/-- Settles O51: every event ends in a settled state (`settled_closeEvent`), a reset and a release in one with
no claim and no mode in which anything follows, and a pin changes no slot's state. -/
theorem stepKeepsTheStateSettled : Obligations.StepKeepsTheStateSettled := by
  intro s u hs hr h
  refine step_keeps (P := fun s => Settled s ∧ HeldInReset s) ?_ ?_ ?_ ⟨hs, hr⟩ h
  · rintro s rest ⟨hs, hr⟩
    refine ⟨hs.of_same rfl rfl (fun _ => rfl) rfl rfl rfl, fun hh => ?_⟩
    conv_rhs => rw [← hr hh]
    rfl
  · rintro s ⟨hs, hr⟩
    refine ⟨hs.of_same rfl rfl (fun _ => rfl) rfl rfl rfl, fun hh => ?_⟩
    conv_rhs => rw [← hr hh]
    rfl
  · intro i s u; exact settled_answers

end Sys2Proof.Machine
end

section
/-! PROOFS. Keys and choices by key (R4), the places of the list (R3), the merge (R12) and the governing
incident (R18). -/

namespace Sys2Proof.Machine

/-! ## Keys (R4) -/

theorem seqOlder_iff (a b : BitVec 4) : seqOlder a b = true ↔
    (1 ≤ (b - a).toNat ∧ (b - a).toNat ≤ 7) ∨ ((b - a).toNat = 8 ∧ a.toNat < b.toNat) := by
  simp [seqOlder]

/-- Exactly one of two different seqs is the older (R4). -/
theorem seqOlder_total : ∀ a b : BitVec 4, a ≠ b → (seqOlder a b = true ↔ seqOlder b a = false) := by
  decide +kernel

@[simp] theorem seqOlder_self (a : BitVec 4) : seqOlder a a = false := by simp [seqOlder]

@[simp] theorem keyLt_self (a : Id) : keyLt a a = false := by simp [keyLt]

theorem keyLt_of_origin_ne {a b : Id} (h : a.origin ≠ b.origin) :
    keyLt a b = true ↔ a.origin < b.origin := by simp [keyLt, h]

theorem keyLt_of_origin_eq {a b : Id} (h : a.origin = b.origin) :
    keyLt a b = seqOlder a.seq b.seq := by simp [keyLt, h]

/-- Exactly one of two different ids has the lower key (R4). -/
theorem keyLt_total {a b : Id} (h : a ≠ b) : keyLt a b = true ↔ keyLt b a = false := by
  obtain ⟨o, x⟩ := a
  obtain ⟨p, y⟩ := b
  by_cases ho : o = p
  · subst ho
    have hxy : x ≠ y := by rintro rfl; exact h rfl
    simpa [keyLt] using seqOlder_total x y hxy
  · have hp : ¬ p = o := fun e => ho e.symm
    simp only [keyLt, ho, hp, if_false, decide_eq_true_eq, decide_eq_false_iff_not]
    omega

theorem keyLt_ne {a b : Id} (h : keyLt a b = true) : a ≠ b := by
  rintro rfl; simp at h

theorem keyLt_asymm {a b : Id} (h : keyLt a b = true) : keyLt b a = false :=
  (keyLt_total (keyLt_ne h)).1 h

/-- Settles O25. -/
theorem keysCompareAsR4 : Obligations.KeysCompareAsR4 := by
  intro a b
  refine ⟨keyLt_of_origin_ne, fun h => ?_, keyLt_total⟩
  rw [keyLt_of_origin_eq h]; exact seqOlder_iff _ _

/-! ## Choosing by key -/

/-- What is picked is among the ids in contention. -/
theorem pickId_mem {better : Id → Id → Bool} {ids : List Id} {a : Id} (h : pickId better ids = some a) :
    a ∈ ids := by
  unfold pickId at h
  split at h
  · rename_i b hb; cases h; exact List.mem_of_find?_eq_some hb
  · exact List.mem_of_getElem? h

/-- Where ids are in contention, one is picked, in a circle too (log 3). -/
theorem pickId_isSome {better : Id → Id → Bool} {ids : List Id} (h : ids ≠ []) :
    (pickId better ids).isSome = true := by
  unfold pickId
  split
  · rfl
  · have hl : 0 < ids.length := List.length_pos_iff.2 h
    simp [Nat.mod_lt _ hl]

/-- The id better than every other is picked. -/
theorem pickId_best {better : Id → Id → Bool} {ids : List Id} {a : Id}
    (anti : ∀ x y, better x y = true → better y x = false) (ha : a ∈ ids)
    (hb : ∀ b ∈ ids, b ≠ a → better a b = true) : pickId better ids = some a := by
  have hf : ids.find? (fun a => ids.all fun b => a == b || better a b) = some a := by
    cases hx : ids.find? (fun a => ids.all fun b => a == b || better a b) with
    | none =>
      have := List.find?_eq_none.1 hx a ha
      simp only [List.all_eq_true, Bool.or_eq_true, beq_iff_eq] at this
      refine absurd (fun b hm => ?_) this
      by_cases e : b = a
      · exact .inl e.symm
      · exact .inr (hb b hm e)
    | some x =>
      have hp := List.find?_some hx
      simp only [List.all_eq_true, Bool.or_eq_true, beq_iff_eq] at hp
      have hm := List.mem_of_find?_eq_some hx
      by_cases e : x = a
      · rw [e]
      · have h1 := anti _ _ (hb x hm e)
        rcases hp a ha with h2 | h2
        · exact absurd h2 e
        · rw [h1] at h2; cases h2
  unfold pickId
  rw [hf]

theorem lowestKey_mem {ids : List Id} {a : Id} (h : lowestKey ids = some a) : a ∈ ids := pickId_mem h

theorem lowestKey_isSome {ids : List Id} (h : ids ≠ []) : (lowestKey ids).isSome = true := pickId_isSome h

theorem lowestKey_best {ids : List Id} {a : Id} (ha : a ∈ ids)
    (hb : ∀ b ∈ ids, b ≠ a → keyLt a b = true) : lowestKey ids = some a :=
  pickId_best (fun _ _ => keyLt_asymm) ha hb

theorem highestKey_best {ids : List Id} {a : Id} (ha : a ∈ ids)
    (hb : ∀ b ∈ ids, b ≠ a → keyLt b a = true) : highestKey ids = some a :=
  pickId_best (fun _ _ => keyLt_asymm) ha hb

/-! ## Records by id -/

theorem findRec_id {rs : List Rec} {id : Id} {r : Rec} (h : findRec rs id = some r) : r.id = id := by
  simpa using List.find?_some h

theorem findRec_mem {rs : List Rec} {id : Id} {r : Rec} (h : findRec rs id = some r) : r ∈ rs :=
  List.mem_of_find?_eq_some h

theorem findRec_eq_none {rs : List Rec} {id : Id} : findRec rs id = none ↔ ∀ r ∈ rs, r.id ≠ id := by
  simp [findRec]

/-- With distinct ids a held record is the one found for its id. -/
theorem findRec_of_mem {rs : List Rec} (hd : (rs.map Rec.id).Nodup) {r : Rec} (h : r ∈ rs) :
    findRec rs r.id = some r := by
  cases hf : findRec rs r.id with
  | none => exact absurd rfl (findRec_eq_none.1 hf r h)
  | some x => rw [List.inj_on_of_nodup_map hd (findRec_mem hf) h (findRec_id hf)]

theorem mem_actives {rs : List Rec} {id : Id} {c : Content} :
    (id, c) ∈ actives rs ↔ ∃ r ∈ rs, r.id = id ∧ contentOf r = some c := by
  unfold actives
  simp only [List.mem_filterMap, Option.map_eq_some_iff, Prod.mk.injEq]
  constructor
  · rintro ⟨r, hr, x, hx, h1, rfl⟩; exact ⟨r, hr, h1, hx⟩
  · rintro ⟨r, hr, h1, hx⟩; exact ⟨r, hr, c, hx, h1, rfl⟩

theorem contentOf_some {r : Rec} {c : Content} : contentOf r = some c ↔ ∃ d, r.st = .active c d := by
  unfold contentOf
  cases r.st <;> simp

/-! ## Places (R3) -/

theorem endOrder_some {r : Rec} {n : Nat} : endOrder r = some n ↔ ∃ t, r.st = .ended n t := by
  unfold endOrder
  cases r.st <;> simp

theorem isEnded_iff {r : Rec} : isEnded r = true ↔ ∃ n t, r.st = .ended n t := by
  unfold isEnded
  cases r.st <;> simp

theorem endOrder_of_not_ended {r : Rec} (h : isEnded r = false) : endOrder r = none := by
  unfold endOrder isEnded at *
  cases hs : r.st <;> simp_all

/-- The record that is evicted is a held ENDED one (R3). -/
theorem evictee_ended {rs : List Rec} {id : Id} (h : evictee rs = some id) :
    ∃ r ∈ rs, r.id = id ∧ isEnded r = true := by
  unfold evictee at h
  split at h
  · cases h
  · obtain ⟨r, hr, hid⟩ := List.mem_map.1 (pickId_mem h)
    obtain ⟨hm, ho⟩ := List.mem_filter.1 hr
    obtain ⟨t, ht⟩ := endOrder_some.1 (by simpa using ho)
    exact ⟨r, hm, hid, isEnded_iff.2 ⟨_, t, ht⟩⟩

theorem makeRoom_of_short {rs : List Rec} (h : rs.length < 6) : makeRoom rs = some rs := by
  unfold makeRoom maxRecords
  rw [if_pos h]

theorem makeRoom_of_full {rs : List Rec} (h : 6 ≤ rs.length) (he : ∀ r ∈ rs, isEnded r = false) :
    makeRoom rs = none := by
  have hn : rs.filterMap endOrder = [] := by
    rw [List.filterMap_eq_nil_iff]; exact fun r hr => endOrder_of_not_ended (he r hr)
  unfold makeRoom evictee maxRecords
  rw [if_neg (by omega), hn]
  rfl

/-- Where room is made, the list had a free place, or an ENDED record of a full list gives its up (R3). -/
theorem makeRoom_cases {rs qs : List Rec} (h : makeRoom rs = some qs) :
    (rs.length < 6 ∧ qs = rs) ∨ (6 ≤ rs.length ∧ ∃ x ∈ rs, isEnded x = true ∧
      qs = rs.filter fun r => r.id != x.id) := by
  unfold makeRoom maxRecords at h
  split at h
  · rename_i hl; cases h; exact .inl ⟨hl, rfl⟩
  · rename_i hl
    split at h
    · cases h
    · rename_i id hid
      obtain ⟨x, hx, rfl, he⟩ := evictee_ended hid
      cases h
      exact .inr ⟨by omega, x, hx, he, rfl⟩

/-- Settles O26. -/
theorem makingRoomIsR3 : Obligations.MakingRoomIsR3 := by
  intro rs hd
  refine ⟨makeRoom_of_short, makeRoom_of_full, fun r n t hl hr hst hall => ?_⟩
  have hord : endOrder r = some n := endOrder_some.2 ⟨t, hst⟩
  have hmin : (rs.filterMap endOrder).min? = some n := by
    rw [List.min?_eq_some_iff]
    refine ⟨List.mem_filterMap.2 ⟨r, hr, hord⟩, fun m hm => ?_⟩
    obtain ⟨x, hx, ho⟩ := List.mem_filterMap.1 hm
    obtain ⟨t', ht'⟩ := endOrder_some.1 ho
    rcases hall x hx m t' ht' with h | ⟨h, -⟩ <;> omega
  have hpick : evictee rs = some r.id := by
    unfold evictee
    rw [hmin]
    refine highestKey_best ?_ ?_
    · exact List.mem_map_of_mem (List.mem_filter.2 ⟨hr, by simp [hord]⟩)
    · intro b hb hne
      obtain ⟨x, hx, rfl⟩ := List.mem_map.1 hb
      obtain ⟨hx, ho⟩ := List.mem_filter.1 hx
      obtain ⟨t', ht'⟩ := endOrder_some.1 (by simpa using ho)
      rcases hall x hx n t' ht' with h | ⟨-, h⟩
      · omega
      · exact h (by rintro rfl; exact hne rfl)
  have hsame : ∀ x ∈ rs, (x.id != r.id) = (x != r) := by
    intro x hx
    by_cases e : x = r
    · simp [e]
    · have : x.id ≠ r.id := fun h => e (List.inj_on_of_nodup_map hd hx hr h)
      rw [bne_iff_ne.2 this, bne_iff_ne.2 e]
  unfold makeRoom maxRecords
  rw [if_neg (by omega), hpick, ← List.filter_congr hsame]

/-! ## Merging (R12) -/

theorem outranks_iff (a b : Content) : outranks b a = true ↔
    a.rev < b.rev ∨ (a.rev = b.rev ∧ a.cmd.getD 0 < b.cmd.getD 0) := by
  simp [outranks]

@[simp] theorem merge_lo (a b : Content) : (merge a b).lo = min a.lo b.lo := rfl
@[simp] theorem merge_hi (a b : Content) : (merge a b).hi = max a.hi b.hi := rfl

/-- The direction, revision and source of a merge are those of the contribution that ranks higher (R12). -/
theorem merge_direction (a b : Content) :
    ((merge a b).dir, (merge a b).rev, (merge a b).cmd) =
      if a.rev < b.rev ∨ (a.rev = b.rev ∧ a.cmd.getD 0 < b.cmd.getD 0)
      then (b.dir, b.rev, b.cmd) else (a.dir, a.rev, a.cmd) := by
  by_cases h : outranks b a = true
  · rw [if_pos ((outranks_iff a b).1 h)]; simp [merge, h]
  · rw [if_neg (fun x => h ((outranks_iff a b).2 x))]; simp [merge, h]

/-- The same contents but for the direction are the same where that is the same too. -/
theorem Content.ext_direction {a b : Content} (hl : a.lo = b.lo) (hh : a.hi = b.hi)
    (hd : (a.dir, a.rev, a.cmd) = (b.dir, b.rev, b.cmd)) : a = b := by
  cases a; cases b; simp_all

/-- Settles O27: the rank decides which contribution gives the direction, so only a full tie of different
directions or sources depends on the order. -/
theorem mergeIsR12 : Obligations.MergeIsR12 := by
  intro a b
  refine ⟨rfl, rfl, merge_direction a b, fun h => ?_⟩
  refine Content.ext_direction (Nat.min_comm _ _) (Nat.max_comm _ _) ?_
  rw [merge_direction, merge_direction]
  have h : (a.rev ≠ b.rev ∨ a.cmd.getD 0 ≠ b.cmd.getD 0) ∨ a.dir = b.dir ∧ a.cmd = b.cmd := by
    simpa only [ne_eq, Prod.mk.injEq, not_and_or] using h
  split <;> split <;> try rfl
  · omega
  · have hr : a.rev = b.rev := by omega
    have hc : a.cmd.getD 0 = b.cmd.getD 0 := by omega
    rcases h with (h | h) | ⟨hd, hc⟩
    · exact absurd hr h
    · exact absurd hc h
    · simp [hd, hr, hc]

/-! ## The governing incident (R18) -/

/-- Among the ACTIVE records the distance of the governing one is the least. -/
theorem governingOf_some {p : Nat} {rs : List Rec} {id : Id} (h : governingOf p rs = some id) :
    ∃ m, (∀ a ∈ actives rs, m ≤ distance p a.2) ∧
      lowestKey (((actives rs).filter fun a => distance p a.2 == m).map Prod.fst) = some id := by
  unfold governingOf at h
  split at h
  · cases h
  · rename_i m hm
    refine ⟨m, fun a ha => ?_, h⟩
    exact (List.min?_eq_some_iff.1 hm).2 _ (List.mem_map_of_mem ha)

/-- Some ACTIVE record governs wherever one is held. -/
theorem governingOf_isSome {p : Nat} {rs : List Rec} (h : actives rs ≠ []) :
    (governingOf p rs).isSome = true := by
  unfold governingOf
  split
  · rename_i hm
    simp [List.min?_eq_none_iff] at hm
    exact absurd hm h
  · rename_i m hm
    refine lowestKey_isSome ?_
    obtain ⟨a, ha, hd⟩ := List.mem_map.1 (List.min?_eq_some_iff.1 hm).1
    intro hn
    have : a.1 ∈ ((actives rs).filter fun a => distance p a.2 == m).map Prod.fst :=
      List.mem_map_of_mem (List.mem_filter.2 ⟨ha, by simp [hd]⟩)
    rw [hn] at this; cases this

theorem anyActive_iff (s : State) : anyActive s = true ↔ actives s.iu.records ≠ [] := by
  unfold anyActive
  cases actives s.iu.records <;> simp

/-- The id that governs is of an ACTIVE record. -/
theorem governingOf_mem {p : Nat} {rs : List Rec} {id : Id} (h : governingOf p rs = some id) :
    ∃ c, (id, c) ∈ actives rs ∧ ∃ m, distance p c = m ∧ ∀ a ∈ actives rs, m ≤ distance p a.2 := by
  obtain ⟨m, hm, hk⟩ := governingOf_some h
  obtain ⟨⟨i, c⟩, ha, rfl⟩ := List.mem_map.1 (lowestKey_mem hk)
  obtain ⟨ha, hd⟩ := List.mem_filter.1 ha
  exact ⟨c, ha, m, by simpa using hd, hm⟩

/-- With distinct ids, the record of the id that governs is the governing one. -/
theorem governing_of_governingOf {s : State} (hd : (s.iu.records.map Rec.id).Nodup) {id : Id}
    {c : Content} (h : governingOf s.station s.iu.records = some id)
    (ha : (id, c) ∈ actives s.iu.records) : ∃ d, governing s = some ⟨id, c, d⟩ := by
  obtain ⟨r, hr, rfl, hc⟩ := mem_actives.1 ha
  obtain ⟨d, hst⟩ := contentOf_some.1 hc
  refine ⟨d, ?_⟩
  unfold governing
  rw [h]
  simp only [findRec_of_mem hd hr, hst]

theorem governing_id {s : State} {g : Governing} (h : governing s = some g) :
    governingOf s.station s.iu.records = some g.id := by
  unfold governing at h
  split at h
  · cases h
  · rename_i id hid
    split at h
    · cases h
    · split at h
      · cases h; exact hid
      · cases h
      · cases h

/-- Settles O24: `governingOf` takes the least distance, and among those as near the lowest key. -/
theorem governingIsTheNearest : Obligations.GoverningIsTheNearest := by
  intro s hd
  refine ⟨⟨fun h => ?_, fun h => ?_⟩, fun g hg => ?_⟩
  · cases hx : anyActive s with
    | false => rfl
    | true =>
      obtain ⟨id, hid⟩ := Option.isSome_iff_exists.1
        (governingOf_isSome (p := s.station) ((anyActive_iff s).1 hx))
      obtain ⟨c, hc, -⟩ := governingOf_mem hid
      obtain ⟨d, hgd⟩ := governing_of_governingOf hd hid hc
      rw [h] at hgd; cases hgd
  · cases hg : governing s with
    | none => rfl
    | some g =>
      obtain ⟨c, hc, -⟩ := governingOf_mem (governing_id hg)
      have : anyActive s = true := (anyActive_iff s).2 (List.ne_nil_of_mem hc)
      rw [h] at this; cases this
  · have hgo := governing_id hg
    obtain ⟨r, hr, hst⟩ := governing_rec hg
    have hmem : (g.id, g.content) ∈ actives s.iu.records :=
      mem_actives.2 ⟨r, findRec_mem hr, findRec_id hr, contentOf_some.2 ⟨_, hst⟩⟩
    obtain ⟨c, hc, m, hm, hmin⟩ := governingOf_mem hgo
    obtain ⟨d, hgd⟩ := governing_of_governingOf hd hgo hc
    have hcc : g.content = c := by
      rw [hg] at hgd; exact congrArg Governing.content (Option.some.inj hgd)
    subst hcc
    refine ⟨hmem, fun a ha => hm ▸ hmin a ha, fun a ha hda hlow => ?_⟩
    obtain ⟨m', hm', hk⟩ := governingOf_some hgo
    obtain ⟨x, hx, hxid⟩ := List.mem_map.1 (lowestKey_mem hk)
    have hxd : distance s.station x.2 = m' := by simpa using (List.mem_filter.1 hx).2
    have hmm : m' = distance s.station g.content :=
      Nat.le_antisymm (hm' _ hmem) (hxd ▸ hm ▸ hmin x (List.mem_filter.1 hx).1)
    rw [lowestKey_best (a := a.1) ?_ ?_] at hk
    · exact (Option.some.inj hk)
    · exact List.mem_map_of_mem (List.mem_filter.2 ⟨ha, by simp [hda, hmm]⟩)
    · intro b hb hne
      obtain ⟨y, hy, rfl⟩ := List.mem_map.1 hb
      obtain ⟨hy, hyd⟩ := List.mem_filter.1 hy
      exact hlow y hy (by simpa [hmm] using hyd) hne

end Sys2Proof.Machine
end

section
/-! PROOFS. The incident list by id: what each of its operations makes of the state held for an id, and what it
makes of the links (R3, R13). -/

namespace Sys2Proof.Machine

/-! ## The state held for an id -/

/-- The state held for `id`, none where no record is. -/
def held (rs : List Rec) (id : Id) : Option RecState := (findRec rs id).map Rec.st

theorem held_eq_none {rs : List Rec} {id : Id} : held rs id = none ↔ findRec rs id = none := by
  simp [held]

theorem held_eq_some {rs : List Rec} {id : Id} {st : RecState} :
    held rs id = some st ↔ findRec rs id = some ⟨id, st⟩ := by
  unfold held
  cases h : findRec rs id with
  | none => simp
  | some r =>
    have := findRec_id h
    obtain ⟨i, x⟩ := r
    simp only at this
    subst this
    simp

theorem held_of_mem {rs : List Rec} (hd : (rs.map Rec.id).Nodup) {r : Rec} (h : r ∈ rs) :
    held rs r.id = some r.st := by rw [held, findRec_of_mem hd h]; rfl

theorem findRec_map_st (f : Id → RecState → RecState) (rs : List Rec) (id : Id) :
    findRec (rs.map fun r => ⟨r.id, f r.id r.st⟩) id = (findRec rs id).map fun r => ⟨r.id, f r.id r.st⟩ := by
  unfold findRec
  rw [List.find?_map]
  rfl

/-- An operation that gives every record a state by its id and state gives the held ones so. -/
theorem held_map (f : Id → RecState → RecState) (rs : List Rec) (id : Id) :
    held (rs.map fun r => ⟨r.id, f r.id r.st⟩) id = (held rs id).map (f id) := by
  unfold held
  rw [findRec_map_st]
  cases h : findRec rs id with
  | none => rfl
  | some r => simp [findRec_id h]

theorem map_ids (f : Id → RecState → RecState) (rs : List Rec) :
    (rs.map fun r => (⟨r.id, f r.id r.st⟩ : Rec)).map Rec.id = rs.map Rec.id := by
  rw [List.map_map]; rfl

theorem held_filter_ne (rs : List Rec) (x id : Id) :
    held (rs.filter fun r => r.id != x) id = if id = x then none else held rs id := by
  unfold held findRec
  rw [List.find?_filter]
  split
  · rename_i h
    subst h
    simp
  · rename_i h
    congr 2
    funext r
    by_cases hr : r.id = id
    · simp [hr, h]
    · simp [hr]

theorem held_addRec (rs : List Rec) (r : Rec) (id : Id) :
    held (addRec rs r) id = if id = r.id then some r.st else held rs id := by
  have hf := held_filter_ne rs r.id id
  unfold addRec
  unfold held findRec at *
  rw [List.find?_append]
  split
  · rename_i h
    rw [if_pos h, Option.map_eq_none_iff] at hf
    subst h
    simp [hf]
  · rename_i h
    rw [if_neg h] at hf
    have hn : (r.id == id) = false := by simpa using fun e => h e.symm
    rw [← hf]
    simp [hn]

/-! ## The operations on states -/

/-- The content of an ACTIVE record replaced. -/
def withContent (c : Content) : RecState → RecState
  | .active _ d => .active c d
  | .absorbed y => .absorbed y
  | .ended n t => .ended n t

/-- The demand part of an ACTIVE record replaced. -/
def withDemand (d : Option Demand) : RecState → RecState
  | .active c _ => .active c d
  | .absorbed y => .absorbed y
  | .ended n t => .ended n t

/-- What `f` makes of the content of an ACTIVE record. -/
def onContent (f : Content → Content) : RecState → RecState
  | .active c d => .active (f c) d
  | .absorbed y => .absorbed y
  | .ended n t => .ended n t

theorem setRecState_eq (rs : List Rec) (id : Id) (st : RecState) :
    setRecState rs id st = rs.map fun r => ⟨r.id, if r.id = id then st else r.st⟩ := by
  unfold setRecState
  refine List.map_congr_left fun r _ => ?_
  by_cases h : r.id = id <;> simp [h]

theorem setContent_eq (rs : List Rec) (id : Id) (c : Content) :
    setContent rs id c = rs.map fun r => ⟨r.id, if r.id = id then withContent c r.st else r.st⟩ := by
  unfold setContent
  refine List.map_congr_left fun r _ => ?_
  obtain ⟨i, st⟩ := r
  by_cases h : i = id <;> cases st <;> simp [h, withContent]

theorem setDemand_eq (rs : List Rec) (id : Id) (d : Option Demand) :
    setDemand rs id d = rs.map fun r => ⟨r.id, if r.id = id then withDemand d r.st else r.st⟩ := by
  unfold setDemand
  refine List.map_congr_left fun r _ => ?_
  obtain ⟨i, st⟩ := r
  by_cases h : i = id <;> cases st <;> simp [h, withDemand]

@[simp] theorem setRecState_ids (rs : List Rec) (id : Id) (st : RecState) :
    (setRecState rs id st).map Rec.id = rs.map Rec.id := by
  rw [setRecState_eq, map_ids fun i x => if i = id then st else x]

@[simp] theorem setContent_ids (rs : List Rec) (id : Id) (c : Content) :
    (setContent rs id c).map Rec.id = rs.map Rec.id := by
  rw [setContent_eq, map_ids fun i x => if i = id then withContent c x else x]

@[simp] theorem setDemand_ids (rs : List Rec) (id : Id) (d : Option Demand) :
    (setDemand rs id d).map Rec.id = rs.map Rec.id := by
  rw [setDemand_eq, map_ids fun i x => if i = id then withDemand d x else x]

theorem held_setRecState (rs : List Rec) (x id : Id) (st : RecState) :
    held (setRecState rs x st) id = (held rs id).map fun y => if id = x then st else y := by
  rw [setRecState_eq, held_map fun i y => if i = x then st else y]

theorem held_setContent (rs : List Rec) (x id : Id) (c : Content) :
    held (setContent rs x c) id = (held rs id).map fun y => if id = x then withContent c y else y := by
  rw [setContent_eq, held_map fun i y => if i = x then withContent c y else y]

/-! ## Links -/

/-- What of a record's state its chain depends on (R13). -/
inductive Shape where
  | active
  | absorbed (survivor : Id)
  | ended

/-- The shape of a record's state. -/
def shapeOf : RecState → Shape
  | .active _ _ => .active
  | .absorbed y => .absorbed y
  | .ended _ _ => .ended

/-- The shape held for an id. -/
def look (rs : List Rec) (id : Id) : Option Shape := (held rs id).map shapeOf

/-- The chain of `id` ends at the ACTIVE record `e` (R13). -/
inductive EndsAt (l : Id → Option Shape) : Id → Id → Prop where
  | here {id : Id} (active : l id = some .active) : EndsAt l id id
  | link {id y e : Id} (linked : l id = some (.absorbed y)) (rest : EndsAt l y e) : EndsAt l id e

/-- Every link goes to a lower key and its chain ends at an ACTIVE record (R3, R13). -/
def Chained (l : Id → Option Shape) : Prop :=
  ∀ id y, l id = some (.absorbed y) → keyLt y id = true ∧ ∃ e, EndsAt l id e

theorem EndsAt.active {l : Id → Option Shape} {id e : Id} (h : EndsAt l id e) :
    l e = some .active := by
  induction h with
  | here a => exact a
  | link _ _ ih => exact ih

/-- A chain has one end. -/
theorem EndsAt.unique {l : Id → Option Shape} {id e f : Id} (h : EndsAt l id e) (g : EndsAt l id f) :
    e = f := by
  induction h with
  | here a =>
    cases g with
    | here => rfl
    | link b => rw [a] at b; cases b
  | link a _ ih =>
    cases g with
    | here b => rw [a] at b; cases b
    | link b hb => rw [a] at b; cases b; exact ih hb

/-- A chain that does not touch the id whose shape changes stands. -/
theorem EndsAt.update_of_ne {l : Id → Option Shape} {x id e : Id} {k : Option Shape}
    (h : EndsAt l id e) (hx : ∀ y, l x ≠ some (.absorbed y)) (he : e ≠ x) :
    EndsAt (Function.update l x k) id e := by
  induction h with
  | here a => exact .here (by rw [Function.update_of_ne he]; exact a)
  | @link id y e a _ ih =>
    refine .link (y := y) ?_ (ih he)
    rw [Function.update_of_ne]
    · exact a
    · rintro rfl; exact hx y a

/-- A record that is made ACTIVE ends every chain that came to it, and no other changes (R7, R15). -/
theorem Chained.update_active {l : Id → Option Shape} (h : Chained l) (x : Id) :
    Chained (Function.update l x (some .active)) := by
  have key (id e : Id) (he : EndsAt l id e) :
      ∃ f, EndsAt (Function.update l x (some .active)) id f := by
    induction he with
    | @here id a =>
      refine ⟨id, .here ?_⟩
      by_cases e : id = x
      · rw [e, Function.update_self]
      · rw [Function.update_of_ne e]; exact a
    | @link id y e a _ ih =>
      by_cases e : id = x
      · exact ⟨id, .here (by rw [e, Function.update_self])⟩
      · obtain ⟨f, hf⟩ := ih
        exact ⟨f, .link (y := y) (by rw [Function.update_of_ne e]; exact a) hf⟩
  intro id y hl
  by_cases e : id = x
  · rw [e, Function.update_self] at hl; cases hl
  · rw [Function.update_of_ne e] at hl
    obtain ⟨hk, f, hf⟩ := h id y hl
    exact ⟨hk, key id f hf⟩

/-- An id in no chain, since not held or held ENDED, may come to be held otherwise so (R22, R23). -/
theorem Chained.update_idle {l : Id → Option Shape} (h : Chained l) {x : Id} {k : Option Shape}
    (hx : l x = none ∨ l x = some .ended) (hk : k = none ∨ k = some .ended) :
    Chained (Function.update l x k) := by
  intro id y hl
  by_cases e : id = x
  · rw [e, Function.update_self] at hl; rcases hk with rfl | rfl <;> cases hl
  · rw [Function.update_of_ne e] at hl
    obtain ⟨hk, f, hf⟩ := h id y hl
    refine ⟨hk, f, hf.update_of_ne (fun y hy => ?_) ?_⟩
    · rcases hx with hx | hx <;> rw [hx] at hy <;> cases hy
    · rintro rfl
      have := hf.active
      rcases hx with hx | hx <;> rw [hx] at this <;> cases this

/-- A record that was not held, or held ACTIVE, becomes ABSORBED toward a lower key whose chain ends elsewhere
(R13, R16, R17). -/
theorem Chained.update_link {l : Id → Option Shape} (h : Chained l) {x y e : Id}
    (hx : l x = none ∨ l x = some .active) (hk : keyLt y x = true) (hy : EndsAt l y e) (he : e ≠ x) :
    Chained (Function.update l x (some (.absorbed y))) := by
  have hn (z : Id) : l x ≠ some (.absorbed z) := by rcases hx with hx | hx <;> rw [hx] <;> simp
  have hxe : EndsAt (Function.update l x (some (.absorbed y))) x e :=
    .link (Function.update_self _ _ _) (hy.update_of_ne hn he)
  have key (id f : Id) (hf : EndsAt l id f) :
      ∃ g, EndsAt (Function.update l x (some (.absorbed y))) id g := by
    by_cases e : f = x
    · subst e
      clear hxe
      induction hf with
      | here a => exact ⟨_, .link (Function.update_self _ _ _) (hy.update_of_ne hn he)⟩
      | @link id z f a _ ih =>
        obtain ⟨g, hg⟩ := ih hx hk he hn
        refine ⟨g, .link (y := z) ?_ hg⟩
        rw [Function.update_of_ne]
        · exact a
        · rintro rfl; exact hn z a
    · exact ⟨f, hf.update_of_ne hn e⟩
  intro id z hl
  by_cases e : id = x
  · subst e
    rw [Function.update_self] at hl
    cases hl
    exact ⟨hk, _, hxe⟩
  · rw [Function.update_of_ne e] at hl
    obtain ⟨hk, f, hf⟩ := h id z hl
    exact ⟨hk, key id f hf⟩

/-- The records whose chain ends at `g` become ENDED, and the other chains stand (R21). -/
theorem Chained.end {l m : Id → Option Shape} (h : Chained l) {g : Id}
    (hg : ∀ id, EndsAt l id g → ∀ y, m id ≠ some (.absorbed y))
    (hm : ∀ id, ¬ EndsAt l id g → m id = l id) : Chained m := by
  have key (id e : Id) (he : EndsAt l id e) (hne : e ≠ g) : EndsAt m id e := by
    induction he with
    | @here id a =>
      exact .here (by rw [hm id fun x => hne ((EndsAt.here a).unique x)]; exact a)
    | @link id y e a hr ih =>
      exact .link (by rw [hm id fun x => hne ((EndsAt.link a hr).unique x)]; exact a) (ih hne)
  intro id y hl
  have hn : ¬ EndsAt l id g := fun x => hg id x y hl
  rw [hm id hn] at hl
  obtain ⟨hk, e, he⟩ := h id y hl
  exact ⟨hk, e, key id e he (by rintro rfl; exact hn he)⟩

/-! ## What an id resolves to -/

theorem resolveWithin_mono (rs : List Rec) {n : Nat} {id : Id} {e : Rec}
    (h : resolveWithin rs n id = some e) : resolveWithin rs (n + 1) id = some e := by
  induction n generalizing id with
  | zero => cases h
  | succ n ih =>
    rw [resolveWithin] at h ⊢
    cases hf : findRec rs id with
    | none => rw [hf] at h; cases h
    | some r =>
      rw [hf] at h
      simp only at h ⊢
      cases hst : r.st with
      | absorbed y => simp only [hst] at h ⊢; exact ih h
      | active c d => simpa only [hst] using h
      | ended a b => simpa only [hst] using h

theorem resolveWithin_le (rs : List Rec) {n m : Nat} {id : Id} {e : Rec} (hnm : n ≤ m)
    (h : resolveWithin rs n id = some e) : resolveWithin rs m id = some e := by
  induction hnm with
  | refl => exact h
  | step _ ih => exact resolveWithin_mono rs ih

/-- A record that resolves is one found for its own id, and is not ABSORBED. -/
theorem resolveWithin_some {rs : List Rec} {n : Nat} {id : Id} {e : Rec}
    (h : resolveWithin rs n id = some e) :
    findRec rs e.id = some e ∧ ∀ y, e.st ≠ .absorbed y := by
  induction n generalizing id with
  | zero => cases h
  | succ n ih =>
    rw [resolveWithin] at h
    cases hf : findRec rs id with
    | none => rw [hf] at h; cases h
    | some r =>
      rw [hf] at h
      simp only at h
      have hid := findRec_id hf
      cases hst : r.st with
      | absorbed y => simp only [hst] at h; exact ih h
      | active c d => simp only [hst] at h; cases h; rw [hid]; exact ⟨hf, by simp [hst]⟩
      | ended a b => simp only [hst] at h; cases h; rw [hid]; exact ⟨hf, by simp [hst]⟩

theorem resolve_some {rs : List Rec} {id : Id} {e : Rec} (h : resolve rs id = some e) :
    findRec rs e.id = some e ∧ ∀ y, e.st ≠ .absorbed y := resolveWithin_some h

/-- An ACTIVE or ENDED record resolves to itself. -/
theorem resolve_self {rs : List Rec} {id : Id} {r : Rec} (h : findRec rs id = some r)
    (hn : ∀ y, r.st ≠ .absorbed y) : resolve rs id = some r := by
  unfold resolve maxRecords
  rw [resolveWithin, h]
  cases hst : r.st with
  | absorbed y => exact absurd hst (hn y)
  | active c d => simp [hst]
  | ended a b => simp [hst]

/-- An id that is not held resolves to nothing. -/
theorem resolve_of_not_held {rs : List Rec} {id : Id} (h : findRec rs id = none) :
    resolve rs id = none := by
  unfold resolve maxRecords
  rw [resolveWithin, h]

theorem look_of_find {rs : List Rec} {id : Id} {r : Rec} (h : findRec rs id = some r) :
    look rs id = some (shapeOf r.st) := by simp [look, held, h]

/-- A chain that resolves to a record not ENDED ends there. -/
theorem endsAt_of_resolveWithin {rs : List Rec} {n : Nat} {id : Id} {e : Rec}
    (h : resolveWithin rs n id = some e) (he : isEnded e = false) : EndsAt (look rs) id e.id := by
  induction n generalizing id with
  | zero => cases h
  | succ n ih =>
    rw [resolveWithin] at h
    cases hf : findRec rs id with
    | none => rw [hf] at h; cases h
    | some r =>
      rw [hf] at h
      simp only at h
      have hl := look_of_find hf
      cases hst : r.st with
      | absorbed y =>
        simp only [hst] at h hl
        exact .link hl (ih h)
      | active c d =>
        simp only [hst] at h hl
        cases h
        rw [findRec_id hf]; exact .here hl
      | ended a b =>
        simp only [hst] at h
        cases h
        rw [isEnded_iff.2 ⟨a, b, hst⟩] at he; cases he

/-- A chain that ends resolves within some number of links. -/
theorem EndsAt.resolves {rs : List Rec} {id e : Id} (h : EndsAt (look rs) id e) :
    ∃ n r, resolveWithin rs n id = some r ∧ r.id = e ∧ isEnded r = false := by
  have find (id : Id) (k : Shape) (hl : look rs id = some k) :
      ∃ r, findRec rs id = some r ∧ shapeOf r.st = k := by
    unfold look held at hl
    cases hf : findRec rs id with
    | none => rw [hf] at hl; cases hl
    | some r => rw [hf] at hl; exact ⟨r, rfl, by simpa using hl⟩
  induction h with
  | @here id a =>
    obtain ⟨r, hr, hs⟩ := find _ _ a
    refine ⟨1, r, ?_, findRec_id hr, ?_⟩
    · cases hst : r.st <;> simp [hst, shapeOf] at hs
      simp [resolveWithin, hr, hst]
    · cases hst : r.st <;> simp [hst, shapeOf] at hs
      simp [isEnded, hst]
  | @link id y e a _ ih =>
    obtain ⟨r, hr, hs⟩ := find _ _ a
    obtain ⟨n, q, hq, hid, hend⟩ := ih
    refine ⟨n + 1, q, ?_, hid, hend⟩
    cases hst : r.st <;> simp [hst, shapeOf] at hs
    subst hs
    simpa [resolveWithin, hr, hst] using hq

theorem findRec_filter_of_ne {rs : List Rec} {x id : Id} (h : id ≠ x) :
    findRec (rs.filter fun r => r.id != x) id = findRec rs id := by
  have := held_filter_ne rs x id
  rw [if_neg h] at this
  unfold findRec
  rw [List.find?_filter]
  congr 1
  funext r
  by_cases hr : r.id = id
  · simp [hr, h]
  · simp [hr]

theorem findRec_filter_self (rs : List Rec) (x : Id) :
    findRec (rs.filter fun r => r.id != x) x = none := by
  simp [findRec_eq_none]

/-- What resolves within `n` links, where `x` does not, resolves so without the record of `x`. -/
theorem resolveWithin_without {rs : List Rec} {n : Nat} {id x : Id} {e : Rec}
    (h : resolveWithin rs n id = some e) (hx : resolveWithin rs n x = none) :
    resolveWithin (rs.filter fun r => r.id != x) n id = some e := by
  induction n generalizing id with
  | zero => cases h
  | succ n ih =>
    have hne : id ≠ x := by rintro rfl; rw [h] at hx; cases hx
    have hx' : resolveWithin rs n x = none := by
      cases hr : resolveWithin rs n x with
      | none => rfl
      | some y => rw [resolveWithin_mono rs hr] at hx; cases hx
    rw [resolveWithin] at h ⊢
    rw [findRec_filter_of_ne hne]
    cases hf : findRec rs id with
    | none => rw [hf] at h; cases h
    | some r =>
      rw [hf] at h
      simp only at h ⊢
      cases hst : r.st with
      | absorbed y => simp only [hst] at h ⊢; exact ih h hx'
      | active c d => simpa only [hst] using h
      | ended a b => simpa only [hst] using h

theorem resolveWithin_of_without {rs : List Rec} {n : Nat} {id x : Id} {e : Rec}
    (h : resolveWithin (rs.filter fun r => r.id != x) n id = some e) :
    resolveWithin rs n id = some e := by
  induction n generalizing id with
  | zero => cases h
  | succ n ih =>
    rw [resolveWithin] at h ⊢
    have hne : id ≠ x := by
      rintro rfl
      rw [findRec_filter_self] at h; cases h
    rw [findRec_filter_of_ne hne] at h
    cases hf : findRec rs id with
    | none => rw [hf] at h; cases h
    | some r =>
      rw [hf] at h
      simp only at h ⊢
      cases hst : r.st with
      | absorbed y => simp only [hst] at h ⊢; exact ih h
      | active c d => simpa only [hst] using h
      | ended a b => simpa only [hst] using h

/-- A chain that ends does so within as many links as records are held, for it meets none twice (R13). -/
theorem resolveWithin_length {rs : List Rec} {id : Id} {e : Rec}
    (h : ∃ n, resolveWithin rs n id = some e) : resolveWithin rs rs.length id = some e := by
  induction hl : rs.length using Nat.strong_induction_on generalizing rs id with
  | _ len ih =>
  classical
  let n := Nat.find h
  have hn : resolveWithin rs n id = some e := Nat.find_spec h
  cases hk : n with
  | zero => rw [hk] at hn; cases hn
  | succ k =>
    rw [hk, resolveWithin] at hn
    cases hf : findRec rs id with
    | none => rw [hf] at hn; cases hn
    | some r =>
      rw [hf] at hn
      simp only at hn
      have hmem := findRec_mem hf
      obtain ⟨m, rfl⟩ : ∃ m, len = m + 1 :=
        Nat.exists_eq_add_one.2 (hl ▸ List.length_pos_of_mem hmem)
      rw [resolveWithin, hf]
      simp only
      cases hst : r.st with
      | active c d => simpa only [hst] using hn
      | ended a b => simpa only [hst] using hn
      | absorbed y =>
        simp only [hst] at hn ⊢
        have hnone : resolveWithin rs k id = none := by
          cases hr : resolveWithin rs k id with
          | none => rfl
          | some q =>
            have hq : q = e := by
              have h1 := resolveWithin_le rs (Nat.le_succ k) hr
              have h2 : resolveWithin rs (k + 1) id = some e := hk ▸ Nat.find_spec h
              rw [h1] at h2; exact Option.some.inj h2
            subst hq
            have : n ≤ k := Nat.find_min' h hr
            omega
        have hlt : (rs.filter fun r => r.id != id).length < m + 1 := by
          rw [← hl]
          exact List.length_filter_lt_length_iff_exists.2 ⟨r, hmem, by simp [findRec_id hf]⟩
        have hw := ih _ hlt ⟨k, resolveWithin_without hn hnone⟩ rfl
        exact resolveWithin_le rs (by omega) (resolveWithin_of_without hw)

/-! ## A list within its capacity -/

/-- At most 6 records with distinct ids (R3). -/
structure Capped (rs : List Rec) : Prop where
  length : rs.length ≤ 6
  distinct : (rs.map Rec.id).Nodup

/-- In a list within its capacity, a chain ends where its id resolves to (R13). -/
theorem endsAt_iff {rs : List Rec} (h : rs.length ≤ 6) {id e : Id} :
    EndsAt (look rs) id e ↔ ∃ r, resolve rs id = some r ∧ r.id = e ∧ isEnded r = false := by
  constructor
  · intro he
    obtain ⟨n, r, hr, hid, hend⟩ := he.resolves
    refine ⟨r, ?_, hid, hend⟩
    exact resolveWithin_le rs h (resolveWithin_length ⟨n, hr⟩)
  · rintro ⟨r, hr, rfl, hend⟩
    exact endsAt_of_resolveWithin hr hend

theorem look_absorbed {rs : List Rec} {id y : Id} :
    look rs id = some (.absorbed y) ↔ held rs id = some (.absorbed y) := by
  unfold look
  cases held rs id with
  | none => simp
  | some st => cases st <;> simp [shapeOf]

theorem look_active {rs : List Rec} {id : Id} :
    look rs id = some .active ↔ ∃ c d, held rs id = some (.active c d) := by
  unfold look
  cases held rs id with
  | none => simp
  | some st => cases st <;> simp [shapeOf]

theorem look_ended {rs : List Rec} {id : Id} :
    look rs id = some .ended ↔ ∃ n t, held rs id = some (.ended n t) := by
  unfold look
  cases held rs id with
  | none => simp
  | some st => cases st <;> simp [shapeOf]

theorem look_none {rs : List Rec} {id : Id} : look rs id = none ↔ findRec rs id = none := by
  simp [look, held]

/-- The links of a list within its capacity, as O55 has them. -/
theorem chainsEnd_iff {s : State} (h : Capped s.iu.records) :
    ChainsEnd s ↔ Chained (look s.iu.records) := by
  constructor
  · intro hc id y hl
    have hf := held_eq_some.1 (look_absorbed.1 hl)
    obtain ⟨hk, e, he, hend⟩ := hc _ (findRec_mem hf) y rfl
    exact ⟨hk, e.id, (endsAt_iff h.length).2 ⟨e, he, rfl, hend⟩⟩
  · intro hc r hr y hst
    have hl : look s.iu.records r.id = some (.absorbed y) :=
      look_absorbed.2 (hst ▸ held_of_mem h.distinct hr)
    obtain ⟨hk, e, he⟩ := hc r.id y hl
    obtain ⟨q, hq, -, hend⟩ := (endsAt_iff h.length).1 he
    exact ⟨hk, q, hq, hend⟩

/-- Where chains end, an id that is held resolves (R13). -/
theorem Chained.resolve_isSome {rs : List Rec} (h : Chained (look rs)) (hl : rs.length ≤ 6) {id : Id}
    (hf : findRec rs id ≠ none) : (resolve rs id).isSome = true := by
  obtain ⟨r, hr⟩ := Option.ne_none_iff_exists'.1 hf
  cases hst : r.st with
  | absorbed y =>
    have : look rs id = some (.absorbed y) := by rw [look_of_find hr, hst]; rfl
    obtain ⟨-, e, he⟩ := h id y this
    obtain ⟨q, hq, -⟩ := (endsAt_iff hl).1 he
    simp [hq]
  | active c d => rw [resolve_self hr (by simp [hst])]; rfl
  | ended a b => rw [resolve_self hr (by simp [hst])]; rfl

theorem Chained.not_held {rs : List Rec} (h : Chained (look rs)) (hl : rs.length ≤ 6) {id : Id}
    (hr : resolve rs id = none) : findRec rs id = none := by
  cases hf : findRec rs id with
  | none => rfl
  | some r =>
    have := h.resolve_isSome hl (id := id) (by rw [hf]; simp)
    rw [hr] at this; cases this

/-! ## The operations on the links -/

theorem look_addRec (rs : List Rec) (r : Rec) :
    look (addRec rs r) = Function.update (look rs) r.id (some (shapeOf r.st)) := by
  funext id
  unfold look
  rw [held_addRec]
  by_cases h : id = r.id
  · rw [if_pos h, h, Function.update_self]; rfl
  · rw [if_neg h, Function.update_of_ne h]

theorem look_filter_ne (rs : List Rec) (x : Id) :
    look (rs.filter fun r => r.id != x) = Function.update (look rs) x none := by
  funext id
  unfold look
  rw [held_filter_ne]
  by_cases h : id = x
  · rw [if_pos h, h, Function.update_self]; rfl
  · rw [if_neg h, Function.update_of_ne h]

theorem look_setRecState {rs : List Rec} {x : Id} (st : RecState) (hx : findRec rs x ≠ none) :
    look (setRecState rs x st) = Function.update (look rs) x (some (shapeOf st)) := by
  funext id
  unfold look
  rw [held_setRecState]
  by_cases h : id = x
  · subst h
    rw [Function.update_self]
    obtain ⟨r, hr⟩ := Option.ne_none_iff_exists'.1 hx
    simp [held, hr]
  · rw [Function.update_of_ne h]; simp [h]

/-- An operation that keeps every record's shape keeps the links. -/
theorem look_map (f : Id → RecState → RecState) (hf : ∀ i x, shapeOf (f i x) = shapeOf x)
    (rs : List Rec) : look (rs.map fun r => ⟨r.id, f r.id r.st⟩) = look rs := by
  funext id
  unfold look
  rw [held_map]
  cases held rs id <;> simp [hf]

@[simp] theorem shapeOf_withContent (c : Content) (x : RecState) :
    shapeOf (withContent c x) = shapeOf x := by cases x <;> rfl

@[simp] theorem shapeOf_withDemand (d : Option Demand) (x : RecState) :
    shapeOf (withDemand d x) = shapeOf x := by cases x <;> rfl

@[simp] theorem shapeOf_onContent (f : Content → Content) (x : RecState) :
    shapeOf (onContent f x) = shapeOf x := by cases x <;> rfl

@[simp] theorem look_setContent (rs : List Rec) (x : Id) (c : Content) :
    look (setContent rs x c) = look rs := by
  rw [setContent_eq, look_map fun i y => if i = x then withContent c y else y]
  intro i y; split <;> simp

@[simp] theorem look_setDemand (rs : List Rec) (x : Id) (d : Option Demand) :
    look (setDemand rs x d) = look rs := by
  rw [setDemand_eq, look_map fun i y => if i = x then withDemand d y else y]
  intro i y; split <;> simp

theorem shapeOf_bare (r : Rec) : shapeOf (bare r).st = shapeOf r.st := by
  unfold bare; cases h : r.st <;> simp [shapeOf, h]

theorem bare_id (r : Rec) : (bare r).id = r.id := by
  unfold bare; cases r.st <;> rfl

theorem look_bare (rs : List Rec) : look (rs.map bare) = look rs := by
  funext id
  unfold look held findRec
  rw [List.find?_map]
  have : ((fun r => r.id == id) ∘ bare) = fun r : Rec => r.id == id := by
    funext r; simp [bare_id]
  rw [this]
  cases rs.find? fun r => r.id == id <;> simp [shapeOf_bare]

/-- Lists that differ in demand parts alone have the same links. -/
theorem look_of_bare {rs qs : List Rec} (h : qs.map bare = rs.map bare) : look qs = look rs := by
  rw [← look_bare qs, h, look_bare]

theorem ids_of_bare {rs qs : List Rec} (h : qs.map bare = rs.map bare) :
    qs.map Rec.id = rs.map Rec.id := by
  have := congrArg (List.map Rec.id) h
  simpa [List.map_map, Function.comp_def, bare_id] using this

theorem Capped.of_ids {rs qs : List Rec} (h : Capped rs) (e : qs.map Rec.id = rs.map Rec.id) :
    Capped qs where
  length := by
    have := congrArg List.length e
    simp only [List.length_map] at this
    rw [this]; exact h.length
  distinct := e ▸ h.distinct

theorem Capped.of_sublist {rs qs : List Rec} (h : Capped rs) (e : qs.Sublist rs) : Capped qs where
  length := e.length_le.trans h.length
  distinct := h.distinct.sublist (e.map _)

/-- A record takes the place that has been made for it (R3). -/
theorem Capped.add {rs qs : List Rec} (h : Capped rs) (hr : makeRoom rs = some qs) (r : Rec) :
    Capped (addRec qs r) := by
  have hq : qs.length < 6 ∧ qs.Sublist rs := by
    rcases makeRoom_cases hr with ⟨hl, rfl⟩ | ⟨-, x, hx, -, rfl⟩
    · exact ⟨hl, List.Sublist.refl _⟩
    · refine ⟨?_, List.filter_sublist⟩
      have : (rs.filter fun r => r.id != x.id).length < rs.length :=
        List.length_filter_lt_length_iff_exists.2 ⟨x, hx, by simp⟩
      have := h.length
      omega
  have hf : (qs.filter fun x => x.id != r.id).Sublist rs := List.filter_sublist.trans hq.2
  constructor
  · unfold addRec
    have := List.length_filter_le (fun x : Rec => x.id != r.id) qs
    simp only [List.length_append, List.length_singleton]
    omega
  · unfold addRec
    rw [List.map_append, List.nodup_append]
    refine ⟨h.distinct.sublist (hf.map _), by simp, ?_⟩
    intro a ha b hb
    obtain ⟨x, hx, rfl⟩ := List.mem_map.1 ha
    simp only [List.map_cons, List.map_nil, List.mem_singleton] at hb
    subst hb
    simpa using (List.mem_filter.1 hx).2

/-- Making room takes at most one ENDED record away (R3). -/
theorem makeRoom_look {rs qs : List Rec} (hd : (rs.map Rec.id).Nodup) (h : makeRoom rs = some qs) :
    look qs = look rs ∨ ∃ x, look rs x = some .ended ∧ look qs = Function.update (look rs) x none := by
  rcases makeRoom_cases h with ⟨-, rfl⟩ | ⟨-, x, hx, he, rfl⟩
  · exact .inl rfl
  · obtain ⟨n, t, hst⟩ := isEnded_iff.1 he
    refine .inr ⟨x.id, ?_, look_filter_ne rs x.id⟩
    exact look_ended.2 ⟨n, t, hst ▸ held_of_mem hd hx⟩

theorem Chained.of_makeRoom {rs qs : List Rec} (h : Chained (look rs)) (hd : (rs.map Rec.id).Nodup)
    (hr : makeRoom rs = some qs) : Chained (look qs) := by
  rcases makeRoom_look hd hr with e | ⟨x, hx, e⟩
  · rw [e]; exact h
  · rw [e]; exact h.update_idle (.inr hx) (.inl rfl)

/-- Making room leaves every chain that ends. -/
theorem EndsAt.of_makeRoom {rs qs : List Rec} {id e : Id} (h : EndsAt (look rs) id e)
    (hd : (rs.map Rec.id).Nodup) (hr : makeRoom rs = some qs) : EndsAt (look qs) id e := by
  rcases makeRoom_look hd hr with q | ⟨x, hx, q⟩
  · rw [q]; exact h
  · rw [q]
    refine h.update_of_ne (fun y hy => ?_) ?_
    · rw [hx] at hy; cases hy
    · rintro rfl; have := h.active; rw [hx] at this; cases this

/-- An id that is not held is not held once room has been made. -/
theorem makeRoom_not_held {rs qs : List Rec} {id : Id} (h : findRec rs id = none)
    (hr : makeRoom rs = some qs) : findRec qs id = none := by
  rcases makeRoom_cases hr with ⟨-, rfl⟩ | ⟨-, x, -, -, rfl⟩
  · exact h
  · exact findRec_eq_none.2 fun r hm => findRec_eq_none.1 h r (List.mem_filter.1 hm).1

end Sys2Proof.Machine
end

section
/-! PROOFS. The transmit queue's form (R152, R153): each operation on it told by where the frame stands, what
it makes of the classes, the incident ids and the claim-kind frames, and that placing a frame keeps the form. -/

namespace Sys2Proof.Machine

/-! ## The operations, by where the frame stands -/

/-- A frame that takes a place takes that of the first frame it can (R153). -/
theorem replaceIn_split {b : Body} {q r : List TxFrame} (h : replaceIn b q = some r) :
    ∃ l y t, q = l ++ y :: t ∧ takesPlaceOf b y.body = true ∧
      r = l ++ ⟨b, y.attempts⟩ :: t := by
  induction q generalizing r with
  | nil => cases h
  | cons x xs ih =>
    unfold replaceIn at h
    split at h
    · rename_i hx
      cases h
      exact ⟨[], x, xs, rfl, hx, rfl⟩
    · obtain ⟨r', hr, rfl⟩ := Option.map_eq_some_iff.1 h
      obtain ⟨l, y, t, rfl, hy, rfl⟩ := ih hr
      exact ⟨x :: l, y, t, rfl, hy, rfl⟩

theorem replaceIn_none {b : Body} {q : List TxFrame} :
    replaceIn b q = none ↔ ∀ f ∈ q, takesPlaceOf b f.body = false := by
  induction q with
  | nil => simp [replaceIn]
  | cons x xs ih =>
    unfold replaceIn
    by_cases hx : takesPlaceOf b x.body = true
    · simp [hx]
    · simp only [hx, Bool.false_eq_true, if_false, Option.map_eq_none_iff, ih]
      simp [hx]

theorem supersededIn_split {b : Body} {n : Nat} {q r : List TxFrame} (h : supersededIn b n q = some r) :
    ∃ l y t m, q = l ++ y :: t ∧ takesPlaceOf y.body b = true ∧
      r = l ++ ⟨y.body, m⟩ :: t := by
  induction q generalizing r with
  | nil => cases h
  | cons x xs ih =>
    unfold supersededIn at h
    split at h
    · rename_i hx
      cases h
      exact ⟨[], x, xs, _, rfl, hx, rfl⟩
    · obtain ⟨r', hr, rfl⟩ := Option.map_eq_some_iff.1 h
      obtain ⟨l, y, t, m, rfl, hy, rfl⟩ := ih hr
      exact ⟨x :: l, y, t, m, rfl, hy, rfl⟩

theorem supersededIn_none {b : Body} {n : Nat} {q : List TxFrame} :
    supersededIn b n q = none ↔ ∀ f ∈ q, takesPlaceOf f.body b = false := by
  induction q with
  | nil => simp [supersededIn]
  | cons x xs ih =>
    unfold supersededIn
    by_cases hx : takesPlaceOf x.body b = true
    · simp [hx]
    · simp only [hx, Bool.false_eq_true, if_false, Option.map_eq_none_iff, ih]
      simp [hx]

theorem removeFirst_split {p : TxFrame → Bool} {q : List TxFrame} (h : q.any p = true) :
    ∃ l y t, q = l ++ y :: t ∧ p y = true ∧ (∀ x ∈ l, p x = false) ∧ removeFirst p q = l ++ t := by
  induction q with
  | nil => cases h
  | cons x xs ih =>
    by_cases hx : p x = true
    · exact ⟨[], x, xs, rfl, hx, by simp, by simp [removeFirst, hx]⟩
    · have hx : p x = false := by simpa using hx
      rw [List.any_cons, hx, Bool.false_or] at h
      obtain ⟨l, y, t, rfl, hy, hl, hr⟩ := ih h
      exact ⟨x :: l, y, t, rfl, hy, by simpa [hx] using hl, by simp [removeFirst, hx, hr]⟩

theorem removeFirst_sublist (p : TxFrame → Bool) (q : List TxFrame) :
    (removeFirst p q).Sublist q := by
  induction q with
  | nil => exact .slnil
  | cons x xs ih =>
    unfold removeFirst
    split
    · exact List.sublist_cons_self x xs
    · exact ih.cons_cons x

theorem insertTail_perm (f : TxFrame) (q : List TxFrame) : (insertTail f q).Perm (f :: q) := by
  induction q with
  | nil => exact .refl _
  | cons x xs ih =>
    unfold insertTail
    split
    · exact .refl _
    · exact (ih.cons x).trans (.swap f x xs)

theorem insertHead_perm (f : TxFrame) (q : List TxFrame) : (insertHead f q).Perm (f :: q) := by
  induction q with
  | nil => exact .refl _
  | cons x xs ih =>
    unfold insertHead
    split
    · exact .refl _
    · exact (ih.cons x).trans (.swap f x xs)

/-! ## The form -/

/-- The classes of the frames of a queue, in order. -/
def classesOf (q : List TxFrame) : List Nat := q.map fun f => bodyClass f.body

/-- The incident ids of the frames of class 0, in order. -/
def idsOf (q : List TxFrame) : List Id := q.filterMap fun f => bodyId f.body

/-- The form of a queue (R152). -/
structure TxForm (q : List TxFrame) : Prop where
  classes : (classesOf q).Pairwise (· ≤ ·)
  status : (classesOf q).count 2 ≤ 1
  ids : (idsOf q).Nodup

theorem count_status (q : List TxFrame) :
    (q.filter fun f => bodyClass f.body == 2).length = (classesOf q).count 2 := by
  rw [← List.countP_eq_length_filter, classesOf, List.count, List.countP_map]
  rfl

theorem queueForm_iff (s : State) : QueueForm s ↔ TxForm s.li.tx :=
  ⟨fun h => ⟨h.classes, by rw [← count_status]; exact h.status, h.ids⟩,
    fun h => ⟨h.classes, by rw [count_status]; exact h.status, h.ids⟩⟩

theorem TxForm.of_eq {q r : List TxFrame} (h : TxForm q) (hc : classesOf r = classesOf q)
    (hi : idsOf r = idsOf q) : TxForm r :=
  ⟨hc ▸ h.classes, hc ▸ h.status, hi ▸ h.ids⟩

theorem TxForm.of_sublist {q r : List TxFrame} (h : TxForm q) (hs : r.Sublist q) : TxForm r where
  classes := h.classes.sublist (hs.map _)
  status := ((hs.map _).count_le 2).trans h.status
  ids := h.ids.sublist (hs.filterMap _)

/-- A frame may be added where no STATUS waits beside a STATUS, and none of class 0 for the same id beside one
of class 0, wherever in its class it comes to stand. -/
theorem TxForm.add {q r : List TxFrame} {f : TxFrame} (h : TxForm q) (hp : r.Perm (f :: q))
    (hc : (classesOf r).Pairwise (· ≤ ·))
    (hs : bodyClass f.body = 2 → ∀ x ∈ q, bodyClass x.body ≠ 2)
    (hi : ∀ id, bodyId f.body = some id → ∀ x ∈ q, bodyId x.body ≠ some id) : TxForm r where
  classes := hc
  status := by
    have e : (classesOf r).count 2 = (classesOf (f :: q)).count 2 := (hp.map _).count_eq 2
    rw [e]
    simp only [classesOf, List.map_cons, List.count_cons]
    by_cases h2 : bodyClass f.body = 2
    · have : (q.map fun f => bodyClass f.body).count 2 = 0 := by
        rw [List.count_eq_zero]
        intro hm
        obtain ⟨x, hx, hx2⟩ := List.mem_map.1 hm
        exact hs h2 x hx hx2
      rw [this]; split <;> omega
    · have := h.status
      simp only [classesOf] at this
      simpa [h2] using this
  ids := by
    have e : (idsOf r).Perm (idsOf (f :: q)) := hp.filterMap _
    rw [e.nodup_iff, idsOf, List.filterMap_cons]
    cases hb : bodyId f.body with
    | none => exact h.ids
    | some id =>
      refine List.nodup_cons.2 ⟨fun hm => ?_, h.ids⟩
      obtain ⟨x, hx, hx2⟩ := List.mem_filterMap.1 hm
      exact hi id hb x hx hx2

/-- A frame that takes another's place is of its class. -/
theorem takesPlaceOf_class {b y : Body} (h : takesPlaceOf b y = true) : bodyClass b = bodyClass y := by
  cases b <;> cases y <;> simp_all [takesPlaceOf, bodyClass, bodyId, claimNumber]

/-- A frame that takes another's place is for its id, if for any. -/
theorem takesPlaceOf_id {b y : Body} (h : takesPlaceOf b y = true) : bodyId b = bodyId y := by
  cases b <;> cases y <;> simp_all [takesPlaceOf, bodyClass, bodyId, claimNumber]

/-- A frame put in another's place, of its class and for its id, leaves the form. -/
theorem TxForm.put {l t : List TxFrame} {y f : TxFrame} (h : TxForm (l ++ y :: t))
    (hc : bodyClass f.body = bodyClass y.body) (hi : bodyId f.body = bodyId y.body) :
    TxForm (l ++ f :: t) :=
  h.of_eq (by simp [classesOf, hc]) (by simp [idsOf, List.filterMap_cons, hi])

theorem TxForm.replaceIn {b : Body} {q r : List TxFrame} (h : TxForm q)
    (hr : Machine.replaceIn b q = some r) : TxForm r := by
  obtain ⟨l, y, t, rfl, hy, rfl⟩ := replaceIn_split hr
  exact h.put (takesPlaceOf_class hy) (takesPlaceOf_id hy)

theorem TxForm.supersededIn {b : Body} {n : Nat} {q r : List TxFrame} (h : TxForm q)
    (hr : Machine.supersededIn b n q = some r) : TxForm r := by
  obtain ⟨l, y, t, m, rfl, -, rfl⟩ := supersededIn_split hr
  exact h.put rfl rfl

theorem TxForm.removeFirst {p : TxFrame → Bool} {q : List TxFrame} (h : TxForm q) :
    TxForm (Machine.removeFirst p q) := h.of_sublist (removeFirst_sublist p q)

/-- What no waiting frame's place can be taken by is no second STATUS and no second frame for its id. -/
theorem takesPlaceOf_status {b y : Body} (hb : bodyClass b = 2) : takesPlaceOf b y = (bodyClass y == 2) := by
  cases b <;> simp_all [bodyClass, takesPlaceOf]

theorem takesPlaceOf_incident {b y : Body} {id : Id} (hb : bodyId b = some id) :
    takesPlaceOf b y = (bodyId y == some id) := by
  cases b <;> simp_all [bodyId, takesPlaceOf]

theorem TxForm.insertTail {f : TxFrame} {q : List TxFrame} (h : TxForm q)
    (hn : ∀ x ∈ q, takesPlaceOf f.body x.body = false) : TxForm (Machine.insertTail f q) :=
  h.add (insertTail_perm f q) (insertTail_classes f h.classes)
    (fun hb x hx e => by simpa [takesPlaceOf_status hb, e] using hn x hx)
    (fun id hb x hx e => by simpa [takesPlaceOf_incident hb, e] using hn x hx)

theorem TxForm.insertHead {f : TxFrame} {q : List TxFrame} (h : TxForm q)
    (hn : ∀ x ∈ q, takesPlaceOf x.body f.body = false) : TxForm (Machine.insertHead f q) :=
  h.add (insertHead_perm f q) (insertHead_classes f h.classes)
    (fun hb x hx e => by simpa [takesPlaceOf_status e, hb] using hn x hx)
    (fun id hb x hx e => by simpa [takesPlaceOf_incident e, hb] using hn x hx)

/-- No waiting frame's place is taken by `b`, and none is the CLAIM that `b` withdraws. -/
structure TakesNone (b : Body) (q : List TxFrame) : Prop where
  place : ∀ x ∈ q, takesPlaceOf b x.body = false
  unsent : ∀ a k n, b = .withdraw a k n → q.any (isClaimNo n) = false

/-- The queues that placing a frame can leave (R153). -/
inductive Places (b : Body) (q : List TxFrame) : List TxFrame → Prop where
  | refused (full : 10 ≤ q.length) (none : TakesNone b q) : Places b q q
  | replaces {r : List TxFrame} (at_ : replaceIn b q = some r) : Places b q r
  | removes (a : Nat) (k : SlotNo) (n : BitVec 8) (body : b = .withdraw a k n)
      (waits : q.any (isClaimNo n) = true) : Places b q (removeFirst (isClaimNo n) q)
  | joins (room : q.length < 10) (none : TakesNone b q) : Places b q (insertTail ⟨b, 0⟩ q)

theorem place_places (b : Body) (s : State) (hm : s.sj.mode ≠ .configFault) :
    Places b s.li.tx (place b s).li.tx := by
  have hj (hn : TakesNone b s.li.tx) : Places b s.li.tx (joinTail b s).li.tx := by
    by_cases hl : s.li.tx.length < 10
    · rw [joinTail_room b s hl]; exact .joins hl hn
    · have : (joinTail b s).li.tx = s.li.tx := by
        unfold joinTail maxTx
        rw [if_pos (by omega), refuseFrame_li]
      rw [this]; exact .refused (by omega) hn
  have hr (hu : ∀ a k n, b ≠ .withdraw a k n) (t : State) (ht : t = match replaceIn b s.li.tx with
      | some q => setTx q s
      | none => joinTail b s) : Places b s.li.tx t.li.tx := by
    subst ht
    cases hq : replaceIn b s.li.tx with
    | some q => exact .replaces hq
    | none => exact hj ⟨replaceIn_none.1 hq, fun a k n e => absurd e (hu a k n)⟩
  unfold place
  rw [if_neg hm]
  split
  · rename_i a k n
    split
    · rename_i hc; exact .removes a k n rfl hc
    · rename_i hc
      refine hj ⟨fun _ _ => rfl, ?_⟩
      rintro _ _ _ ⟨⟩
      simpa using hc
  all_goals exact hr (by simp) _ rfl

/-- Placing a frame keeps the form of the queue (R152, R153). -/
theorem TxForm.places {b : Body} {q r : List TxFrame} (h : TxForm q) (hp : Places b q r) : TxForm r := by
  cases hp with
  | refused _ _ => exact h
  | replaces hr => exact h.replaceIn hr
  | removes a k n _ _ => exact h.removeFirst
  | joins _ hn => exact h.insertTail hn.place

theorem TxForm.place {b : Body} {s : State} (h : TxForm s.li.tx) :
    TxForm (Machine.place b s).li.tx := by
  by_cases hm : s.sj.mode = .configFault
  · rw [place_configFault b s hm]; exact h
  · exact h.places (place_places b s hm)

/-! ## The claim-kind frames -/

@[simp] theorem claimFrames_nil : claimFrames [] = [] := rfl

theorem claimFrames_cons (f : TxFrame) (q : List TxFrame) : claimFrames (f :: q) =
    if bodyClass f.body = 1 then f.body :: claimFrames q else claimFrames q := by
  by_cases h : bodyClass f.body = 1 <;> simp [claimFrames, h]

theorem claimFrames_append (l t : List TxFrame) :
    claimFrames (l ++ t) = claimFrames l ++ claimFrames t := by
  simp [claimFrames]

theorem mem_claimFrames {q : List TxFrame} {b : Body} :
    b ∈ claimFrames q ↔ bodyClass b = 1 ∧ ∃ f ∈ q, f.body = b := by
  simp [claimFrames, List.mem_filter, and_comm]

/-- A frame that is no claim-kind frame joins without a change of those. -/
theorem claimFrames_insertTail_other {f : TxFrame} (h : bodyClass f.body ≠ 1) (q : List TxFrame) :
    claimFrames (insertTail f q) = claimFrames q := by
  induction q with
  | nil => simp [insertTail, claimFrames_cons, h]
  | cons x xs ih =>
    unfold insertTail
    split
    · simp [claimFrames_cons, h]
    · simp [claimFrames_cons, ih]

theorem claimFrames_insertHead_other {f : TxFrame} (h : bodyClass f.body ≠ 1) (q : List TxFrame) :
    claimFrames (insertHead f q) = claimFrames q := by
  induction q with
  | nil => simp [insertHead, claimFrames_cons, h]
  | cons x xs ih =>
    unfold insertHead
    split
    · simp [claimFrames_cons, h]
    · simp [claimFrames_cons, ih]

/-- Behind a frame of class 2 no claim-kind frame waits. -/
theorem claimFrames_behind {x : TxFrame} {xs : List TxFrame} (h : (classesOf (x :: xs)).Pairwise (· ≤ ·))
    (hx : 1 < bodyClass x.body) : claimFrames (x :: xs) = [] := by
  rw [List.eq_nil_iff_forall_not_mem]
  intro b hb
  obtain ⟨h1, f, hf, rfl⟩ := mem_claimFrames.1 hb
  rcases List.mem_cons.1 hf with rfl | hf
  · omega
  · have hle : bodyClass x.body ≤ bodyClass f.body :=
      List.rel_of_pairwise_cons h (List.mem_map_of_mem (f := fun f => bodyClass f.body) hf)
    omega

/-- A claim-kind frame joins behind those that wait (R152). -/
theorem claimFrames_insertTail {f : TxFrame} (h : bodyClass f.body = 1) {q : List TxFrame}
    (hq : (classesOf q).Pairwise (· ≤ ·)) : claimFrames (insertTail f q) = claimFrames q ++ [f.body] := by
  induction q with
  | nil => simp [insertTail, claimFrames_cons, h]
  | cons x xs ih =>
    unfold insertTail
    split
    · rename_i hlt
      rw [claimFrames_cons, if_pos h, claimFrames_behind hq (by omega)]; rfl
    · rw [claimFrames_cons, claimFrames_cons, ih (List.pairwise_cons.1 hq).2]
      split <;> rfl

/-- A claim-kind frame returns before those that wait (R156). -/
theorem claimFrames_insertHead {f : TxFrame} (h : bodyClass f.body = 1) {q : List TxFrame}
    (hq : (classesOf q).Pairwise (· ≤ ·)) : claimFrames (insertHead f q) = f.body :: claimFrames q := by
  induction q with
  | nil => simp [insertHead, claimFrames_cons, h]
  | cons x xs ih =>
    unfold insertHead
    split
    · rw [claimFrames_cons, if_pos h]
    · rename_i hlt
      rw [claimFrames_cons, claimFrames_cons (q := xs), ih (List.pairwise_cons.1 hq).2,
        if_neg (by omega), if_neg (by omega)]

/-- Placing a frame that is no claim-kind frame changes none of those. -/
theorem Places.claimFrames_other {b : Body} {q r : List TxFrame} (h : Places b q r)
    (hb : bodyClass b ≠ 1) : claimFrames r = claimFrames q := by
  cases h with
  | refused _ _ => rfl
  | replaces hr =>
    obtain ⟨l, y, t, rfl, hy, rfl⟩ := replaceIn_split hr
    have hyc : bodyClass y.body ≠ 1 := takesPlaceOf_class hy ▸ hb
    simp [claimFrames_append, claimFrames_cons, hb, hyc]
  | removes a k n e _ => subst e; exact absurd rfl hb
  | joins _ _ => exact claimFrames_insertTail_other hb q

theorem claimFrames_place_other {b : Body} (hb : bodyClass b ≠ 1) (s : State) :
    claimFrames (place b s).li.tx = claimFrames s.li.tx := by
  by_cases hm : s.sj.mode = .configFault
  · rw [place_configFault b s hm]
  · exact (place_places b s hm).claimFrames_other hb

/-- Placing a frame brings no claim-kind frame but itself. -/
theorem Places.claimFrames_mem {b x : Body} {q r : List TxFrame} (h : Places b q r)
    (hx : x ∈ claimFrames r) : x ∈ claimFrames q ∨ x = b := by
  obtain ⟨h1, f, hf, rfl⟩ := mem_claimFrames.1 hx
  have hold (hm : f ∈ q) : f.body ∈ claimFrames q := mem_claimFrames.2 ⟨h1, f, hm, rfl⟩
  cases h with
  | refused _ _ => exact .inl (hold hf)
  | replaces hr =>
    obtain ⟨l, y, t, rfl, -, rfl⟩ := replaceIn_split hr
    simp only [List.mem_append, List.mem_cons] at hf hold
    rcases hf with hf | rfl | hf
    · exact .inl (hold (.inl hf))
    · exact .inr rfl
    · exact .inl (hold (.inr (.inr hf)))
  | removes a k n _ _ => exact .inl (hold ((removeFirst_sublist _ q).subset hf))
  | joins _ _ =>
    rcases (insertTail_mem _ _ _).1 hf with rfl | hf
    · exact .inr rfl
    · exact .inl (hold hf)

end Sys2Proof.Machine
end

section
/-! PROOFS. What the operations on the incident list keep: the capacity of the list, its links, one time for
each id answered with END, the form of the transmit queue, and the claim-kind frames in it. -/

namespace Sys2Proof.Machine

/-! ## What leaves the list as it was -/

@[simp] theorem enterConflict_records (s : State) : (enterConflict s).iu.records = s.iu.records := rfl

@[simp] theorem noteConflict_iu (a b : Content) (s : State) : (noteConflict a b s).iu = s.iu := by
  unfold noteConflict; split <;> rfl

@[simp] theorem noteConflict_li (a b : Content) (s : State) : (noteConflict a b s).li = s.li := by
  unfold noteConflict; split <;> rfl

@[simp] theorem catchUp_records (id : Id) (s : State) : (catchUp id s).iu.records = s.iu.records := by
  unfold catchUp; split <;> rfl

@[simp] theorem triggerReannounce_records (id : Id) (s : State) :
    (triggerReannounce id s).iu.records = s.iu.records := by
  unfold triggerReannounce; split <;> rfl

@[simp] theorem triggerReannounce_endSent (id : Id) (s : State) :
    (triggerReannounce id s).iu.endSent = s.iu.endSent := by
  unfold triggerReannounce; split <;> rfl

@[simp] theorem triggerReannounce_li (id : Id) (s : State) : (triggerReannounce id s).li = s.li := by
  unfold triggerReannounce; split <;> rfl

@[simp] theorem triggerAll_records (l : List Id) (s : State) :
    (triggerAll l s).iu.records = s.iu.records := by
  induction l generalizing s with
  | nil => rfl
  | cons id ids ih => rw [triggerAll, ih, triggerReannounce_records]

@[simp] theorem triggerAll_endSent (l : List Id) (s : State) :
    (triggerAll l s).iu.endSent = s.iu.endSent := by
  induction l generalizing s with
  | nil => rfl
  | cons id ids ih => rw [triggerAll, ih, triggerReannounce_endSent]

@[simp] theorem triggerAll_li (l : List Id) (s : State) : (triggerAll l s).li = s.li := by
  induction l generalizing s with
  | nil => rfl
  | cons id ids ih => rw [triggerAll, ih, triggerReannounce_li]

@[simp] theorem placeIncident_records (id : Id) (s : State) :
    (placeIncident id s).iu.records = s.iu.records := by
  unfold placeIncident; split
  · rw [place_iu]
  · rfl

@[simp] theorem placeEnd_records (id : Id) (s : State) : (placeEnd id s).iu.records = s.iu.records := by
  unfold placeEnd; rw [place_iu]

@[simp] theorem answerEnd_records (id : Id) (s : State) :
    (answerEnd id s).iu.records = s.iu.records := by
  unfold answerEnd; split
  · rfl
  · exact placeEnd_records id s

@[simp] theorem dropSaid_records (id : Id) (b : Bool) (s : State) :
    (dropSaid id b s).iu.records = s.iu.records := by
  unfold dropSaid; split <;> rfl

@[simp] theorem divergeFrom_records (id : Id) (c : Content) (s : State) :
    (divergeFrom id c s).iu.records = s.iu.records := by
  unfold divergeFrom; split
  · rfl
  · split
    · exact triggerReannounce_records _ s
    · rfl

@[simp] theorem catchUpAll_records (l : List Id) (s : State) :
    (catchUpAll l s).iu.records = s.iu.records := by
  induction l generalizing s with
  | nil => rfl
  | cons id ids ih => rw [catchUpAll, ih, catchUp_records]

@[simp] theorem answerAll_records (l : List Id) (s : State) :
    (answerAll l s).iu.records = s.iu.records := by
  induction l generalizing s with
  | nil => rfl
  | cons id ids ih =>
    rw [answerAll, ih]; split
    · exact answerEnd_records id s
    · rfl

@[simp] theorem takeStatus_records (st : StatusPart) (s : State) :
    (takeStatus st s).iu.records = s.iu.records := by
  unfold takeStatus
  dsimp only
  split <;> simp

@[simp] theorem replaceContent_records (id : Id) (a b : Content) (s : State) :
    (replaceContent id a b s).iu.records = setContent s.iu.records id b := by
  unfold replaceContent; simp

/-! ## Folding, burnt stations and endings, on the list -/

/-- What folding does to the list where both records are ACTIVE (R16). -/
theorem foldInto_records {x y : Id} {s : State} {cx cy : Content}
    (hx : (findRec s.iu.records x).bind contentOf = some cx)
    (hy : (findRec s.iu.records y).bind contentOf = some cy) :
    (foldInto x y s).iu.records =
      setContent (setRecState s.iu.records y (.absorbed x)) x (merge cx cy) := by
  unfold foldInto
  rw [hx, hy]
  simp

theorem content_held {rs : List Rec} {id : Id} {c : Content} :
    (findRec rs id).bind contentOf = some c ↔ ∃ d, held rs id = some (.active c d) := by
  unfold held
  cases findRec rs id with
  | none => simp
  | some r => simp [contentOf_some]

theorem foldInto_none {x y : Id} {s : State}
    (h : (findRec s.iu.records x).bind contentOf = none ∨
      (findRec s.iu.records y).bind contentOf = none) : foldInto x y s = s := by
  unfold foldInto
  rcases h with h | h
  · rw [h]
  · rw [h]; cases (findRec s.iu.records x).bind contentOf <;> rfl

/-- The list with every ACTIVE span widened by `f`. -/
theorem map_onContent (f : Content → Content) (rs : List Rec) :
    (rs.map fun r => match r.st with
      | .active c d => { r with st := .active (f c) d }
      | .absorbed _ | .ended _ _ => r) = rs.map fun r => ⟨r.id, onContent f r.st⟩ := by
  refine List.map_congr_left fun r _ => ?_
  obtain ⟨i, st⟩ := r
  cases st <;> rfl

@[simp] theorem takeBurnt_records (s : State) :
    (takeBurnt s).iu.records = s.iu.records.map fun r => ⟨r.id, onContent (burntSpan s) r.st⟩ := by
  unfold takeBurnt
  rw [triggerAll_records, setRecords_iu_records]
  exact map_onContent _ _

/-- The span an alarm event leaves of a record (R9). -/
def reached (p : Nat) (c : Content) : Content := if withinReach p c then widened p c else c

/-- The ids of the ACTIVE records that an alarm event extends (R9). -/
def extended (s : State) : List Id :=
  ((actives s.iu.records).filter fun a =>
    withinReach s.station a.2 && spanGrew a.2 (widened s.station a.2)).map Prod.fst

theorem map_reached (p : Nat) (rs : List Rec) :
    (rs.map fun r => match r.st with
      | .active c d => if withinReach p c then { r with st := .active (widened p c) d } else r
      | .absorbed _ | .ended _ _ => r) = rs.map fun r => ⟨r.id, onContent (reached p) r.st⟩ := by
  refine List.map_congr_left fun r _ => ?_
  obtain ⟨i, st⟩ := r
  cases st with
  | active c d => unfold onContent reached; dsimp only; split <;> rfl
  | absorbed y => rfl
  | ended n t => rfl

theorem extendRecords_eq (s : State) : extendRecords s =
    if (extended s).isEmpty then s
    else grown (triggerAll (extended s)
      (setRecords (s.iu.records.map fun r => ⟨r.id, onContent (reached s.station) r.st⟩) s)) := by
  rw [← map_reached]; rfl

/-- The ids whose chain resolves to `g`. -/
def resolvesTo (rs : List Rec) (g : Id) (id : Id) : Bool := (resolve rs id).map Rec.id == some g

theorem resolvesTo_iff {rs : List Rec} {g id : Id} :
    resolvesTo rs g id = true ↔ (resolve rs id).map Rec.id = some g := by simp [resolvesTo]

/-- A stand-down or an END makes every record ENDED whose chain resolves to `g` (R21, R22). -/
theorem endChain_records (g : Id) (s : State) : (endChain g s).iu.records =
    s.iu.records.map fun r => ⟨r.id, if resolvesTo s.iu.records g r.id
      then .ended s.iu.endings (s.now + endingTime) else r.st⟩ := by
  unfold endChain
  dsimp only
  refine List.map_congr_left fun r hr => ?_
  have : ((s.iu.records.filter fun r => (resolve s.iu.records r.id).map Rec.id == some g).map
      Rec.id).contains r.id = resolvesTo s.iu.records g r.id := by
    rw [Bool.eq_iff_iff, List.contains_iff_mem, List.mem_map]
    constructor
    · rintro ⟨x, hx, hid⟩
      have := (List.mem_filter.1 hx).2
      rw [hid] at this; exact this
    · intro h; exact ⟨r, List.mem_filter.2 ⟨hr, h⟩, rfl⟩
  rw [this]
  by_cases h : resolvesTo s.iu.records g r.id = true <;> simp [h]

theorem endChain_held (g : Id) (s : State) (id : Id) : held (endChain g s).iu.records id =
    (held s.iu.records id).map fun st => if resolvesTo s.iu.records g id
      then .ended s.iu.endings (s.now + endingTime) else st := by
  rw [endChain_records, held_map fun i st => if resolvesTo s.iu.records g i
    then .ended s.iu.endings (s.now + endingTime) else st]

@[simp] theorem endChain_ids (g : Id) (s : State) :
    (endChain g s).iu.records.map Rec.id = s.iu.records.map Rec.id := by
  rw [endChain_records, map_ids fun i st => if resolvesTo s.iu.records g i
    then .ended s.iu.endings (s.now + endingTime) else st]

/-- The chains of a list stand when one of its ACTIVE records ends with all that resolves to it (R21). -/
theorem Chained.endChain {g : Id} {s : State} (h : Chained (look s.iu.records))
    (hl : s.iu.records.length ≤ 6) (hg : look s.iu.records g = some .active) :
    Chained (look (Machine.endChain g s).iu.records) := by
  have hr (id : Id) : EndsAt (look s.iu.records) id g ↔ resolvesTo s.iu.records g id = true := by
    rw [endsAt_iff hl, resolvesTo_iff]
    constructor
    · rintro ⟨r, hr, hid, -⟩; rw [hr, ← hid]; rfl
    · intro h
      obtain ⟨r, hr, hid⟩ := Option.map_eq_some_iff.1 h
      refine ⟨r, hr, hid, ?_⟩
      obtain ⟨hf, -⟩ := resolve_some hr
      rw [hid] at hf
      have := look_of_find hf
      rw [hg] at this
      cases hst : r.st <;> simp [hst, shapeOf] at this
      simp [isEnded, hst]
  refine h.end (g := g) (fun id hid y => ?_) (fun id hid => ?_)
  · have := (hr id).1 hid
    rw [Ne, look_absorbed, endChain_held]
    simp [this]
  · have : resolvesTo s.iu.records g id = false := by simpa using fun x => hid ((hr id).2 x)
    unfold look
    rw [endChain_held]
    simp [this]

/-! ## One time for each id -/

theorem putTime_nodup {l : List IdTime} (h : (l.map IdTime.id).Nodup) (id : Id) (t : Time) :
    ((putTime l id t).map IdTime.id).Nodup := by
  unfold putTime dropTime
  rw [List.map_append, List.nodup_append]
  refine ⟨h.sublist (List.filter_sublist.map _), by simp, ?_⟩
  intro a ha b hb
  obtain ⟨x, hx, rfl⟩ := List.mem_map.1 ha
  simp only [List.map_cons, List.map_nil, List.mem_singleton] at hb
  subst hb
  simpa using (List.mem_filter.1 hx).2

theorem stampTime_nodup {l : List IdTime} (h : (l.map IdTime.id).Nodup) (id : Id) (t : Time) :
    ((stampTime l id t).map IdTime.id).Nodup :=
  putTime_nodup (h.sublist (List.filter_sublist.map _)) id t

/-! ## What the operations on the list keep -/

/-- What the operations on the incident list keep, beside what they leave as it was. -/
structure IuKeeps (s t : State) : Prop where
  rest : IuRest s t
  capped : Capped s.iu.records → Capped t.iu.records
  chains : Capped s.iu.records → Chained (look s.iu.records) → Chained (look t.iu.records)
  answered : (s.iu.endSent.map IdTime.id).Nodup → (t.iu.endSent.map IdTime.id).Nodup
  queue : TxForm s.li.tx → TxForm t.li.tx
  claims : claimFrames t.li.tx = claimFrames s.li.tx

theorem IuKeeps.refl (s : State) : IuKeeps s s := ⟨.refl s, id, fun _ => id, id, id, rfl⟩

theorem IuKeeps.trans {s t u : State} (h : IuKeeps s t) (g : IuKeeps t u) : IuKeeps s u where
  rest := h.rest.trans g.rest
  capped := fun x => g.capped (h.capped x)
  chains := fun c x => g.chains (h.capped c) (h.chains c x)
  answered := fun x => g.answered (h.answered x)
  queue := fun x => g.queue (h.queue x)
  claims := g.claims.trans h.claims

/-- An operation that leaves the queue and the answered ids, and of the list the ids and the links. -/
theorem IuKeeps.of_look {s t : State} (h : IuRest s t) (hi : t.iu.records.map Rec.id = s.iu.records.map Rec.id)
    (hl : look t.iu.records = look s.iu.records) (he : t.iu.endSent = s.iu.endSent) (hq : t.li = s.li) :
    IuKeeps s t :=
  ⟨h, fun c => c.of_ids hi, fun _ c => by rw [hl]; exact c, fun x => by rw [he]; exact x,
    fun x => by rw [hq]; exact x, by rw [hq]⟩

/-- An operation that leaves the list, the answered ids and the queue. -/
theorem IuKeeps.of_same {s t : State} (h : IuRest s t) (hr : t.iu.records = s.iu.records)
    (he : t.iu.endSent = s.iu.endSent) (hq : t.li = s.li) : IuKeeps s t :=
  .of_look h (by rw [hr]) (by rw [hr]) he hq

theorem iuKeeps_raise {f : TimedFlag} (s : State)
    (h : f = .txCongested ∨ f = .incidentOverflow ∨ f = .directionConflict) :
    IuKeeps s (raiseFlag f s) := .of_same (iuRest_raise f s h) rfl rfl rfl

/-- Placing an INCIDENT or an END keeps the form of the queue and leaves the claim-kind frames. -/
theorem iuKeeps_place {b : Body} (hb : bodyClass b = 0) (s : State) : IuKeeps s (place b s) where
  rest := iuRest_place b s (by cases b <;> first | rfl | cases hb)
  capped := fun h => by rw [place_iu]; exact h
  chains := fun _ h => by rw [place_iu]; exact h
  answered := fun h => by rw [place_iu]; exact h
  queue := fun h => h.place
  claims := claimFrames_place_other (by omega) s

theorem iuKeeps_noteConflict (a b : Content) (s : State) : IuKeeps s (noteConflict a b s) :=
  .of_same (iuRest_noteConflict a b s) (by simp) (by simp) (by simp)

theorem iuKeeps_setContent (id : Id) (c : Content) (s : State) :
    IuKeeps s (setRecords (setContent s.iu.records id c) s) :=
  .of_look (iuRest_setRecords _ s) (by simp) (by simp) rfl rfl

theorem iuKeeps_replaceContent (id : Id) (a b : Content) (s : State) :
    IuKeeps s (replaceContent id a b s) :=
  (iuKeeps_setContent id b s).trans (iuKeeps_noteConflict a b _)

/-- Widening the ACTIVE spans leaves the links. -/
theorem iuKeeps_onContent (f : Content → Content) (s : State) :
    IuKeeps s (setRecords (s.iu.records.map fun r => ⟨r.id, onContent f r.st⟩) s) :=
  .of_look (iuRest_setRecords _ s) (map_ids (fun _ st => onContent f st) _)
    (look_map (fun _ st => onContent f st) (fun _ x => shapeOf_onContent f x) _) rfl rfl

theorem iuKeeps_catchUp (id : Id) (s : State) : IuKeeps s (catchUp id s) :=
  .of_same (iuRest_catchUp id s) (by simp) (by unfold catchUp; split <;> rfl)
    (by unfold catchUp; split <;> rfl)

theorem iuKeeps_placeIncident (id : Id) (s : State) : IuKeeps s (placeIncident id s) := by
  unfold placeIncident
  split
  · have h : IuKeeps s { s with iu := { s.iu with incidentSent := stampTime s.iu.incidentSent id s.now } } :=
      .of_same (iuRest_iu s _ _ _ _ _ _) rfl rfl rfl
    exact h.trans (iuKeeps_place rfl _)
  · exact .refl s

theorem iuKeeps_placeEnd (id : Id) (s : State) : IuKeeps s (placeEnd id s) := by
  have h : IuKeeps s { s with iu := { s.iu with endSent := stampTime s.iu.endSent id s.now } } :=
    ⟨iuRest_iu s _ _ _ _ _ _, fun x => x, fun _ x => x, fun x => stampTime_nodup x id s.now,
      fun x => x, rfl⟩
  exact h.trans (iuKeeps_place rfl _)

theorem iuKeeps_answerEnd (id : Id) (s : State) : IuKeeps s (answerEnd id s) := by
  unfold answerEnd
  split
  · exact .refl s
  · exact iuKeeps_placeEnd id s

theorem iuKeeps_triggerReannounce (id : Id) (s : State) : IuKeeps s (triggerReannounce id s) :=
  .of_same (iuRest_triggerReannounce id s) (by simp) (by simp) (by simp)

theorem iuKeeps_triggerAll (l : List Id) (s : State) : IuKeeps s (triggerAll l s) :=
  .of_same (iuRest_triggerAll l s) (by simp) (by simp) (by simp)

@[simp] theorem foldInto_li (x y : Id) (s : State) : (foldInto x y s).li = s.li := by
  unfold foldInto
  split
  · simp [replaceContent]
  · rfl

@[simp] theorem foldInto_endSent (x y : Id) (s : State) :
    (foldInto x y s).iu.endSent = s.iu.endSent := by
  unfold foldInto
  split
  · simp [replaceContent]
  · rfl

theorem foldInto_ids (x y : Id) (s : State) :
    (foldInto x y s).iu.records.map Rec.id = s.iu.records.map Rec.id := by
  cases hx : (findRec s.iu.records x).bind contentOf with
  | none => rw [foldInto_none (.inl hx)]
  | some cx =>
    cases hy : (findRec s.iu.records y).bind contentOf with
    | none => rw [foldInto_none (.inr hy)]
    | some cy => rw [foldInto_records hx hy]; simp

/-- Folding one ACTIVE record into another makes a link of it (R16). -/
theorem foldInto_look {x y : Id} {s : State} {cx cy : Content}
    (hx : (findRec s.iu.records x).bind contentOf = some cx)
    (hy : (findRec s.iu.records y).bind contentOf = some cy) :
    look (foldInto x y s).iu.records = Function.update (look s.iu.records) y (some (.absorbed x)) := by
  rw [foldInto_records hx hy, look_setContent, look_setRecState]
  · rfl
  · intro h; rw [h] at hy; cases hy

theorem active_of_content {rs : List Rec} {id : Id} {c : Content}
    (h : (findRec rs id).bind contentOf = some c) : look rs id = some .active := by
  obtain ⟨d, hd⟩ := content_held.1 h
  exact look_active.2 ⟨c, d, hd⟩

/-- Joining a pair, the lower key first (R16). -/
theorem iuKeeps_foldInto {x y : Id} (hk : keyLt x y = true) (s : State) : IuKeeps s (foldInto x y s) where
  rest := iuRest_foldInto x y s
  capped := fun c => c.of_ids (foldInto_ids x y s)
  chains := fun _ h => by
    cases hx : (findRec s.iu.records x).bind contentOf with
    | none => rw [foldInto_none (.inl hx)]; exact h
    | some cx =>
      cases hy : (findRec s.iu.records y).bind contentOf with
      | none => rw [foldInto_none (.inr hy)]; exact h
      | some cy =>
        rw [foldInto_look hx hy]
        exact h.update_link (.inr (active_of_content hy)) hk (.here (active_of_content hx)) (keyLt_ne hk)
  answered := fun h => by rw [foldInto_endSent]; exact h
  queue := fun h => by rw [foldInto_li]; exact h
  claims := by rw [foldInto_li]

/-- The pair handled first is one of ACTIVE records that meet, the lower key first (R16). -/
theorem firstPair_some {rs : List Rec} {p : Id × Id} (h : firstPair rs = some p) :
    p ∈ meetingPairs rs := by
  unfold firstPair at h
  split at h
  · cases h
  · split at h
    · cases h
    · rename_i a _ _ b hb
      cases h
      obtain ⟨q, hq, rfl⟩ := List.mem_map.1 (lowestKey_mem hb)
      obtain ⟨hq, e⟩ := List.mem_filter.1 hq
      rw [← (by simpa using e : q.1 = a)]
      exact hq

theorem mem_meetingPairs {rs : List Rec} {p : Id × Id} : p ∈ meetingPairs rs ↔
    ∃ a ∈ actives rs, ∃ b ∈ actives rs, keyLt a.1 b.1 = true ∧ spansMeet a.2 b.2 = true ∧
      p = (a.1, b.1) := by
  unfold meetingPairs
  simp only [List.mem_flatMap, List.mem_filterMap, Option.ite_none_right_eq_some, Bool.and_eq_true,
    Option.some.injEq]
  constructor
  · rintro ⟨a, ha, b, hb, ⟨h1, h2⟩, h3⟩; exact ⟨a, ha, b, hb, h1, h2, h3.symm⟩
  · rintro ⟨a, ha, b, hb, h1, h2, h3⟩; exact ⟨a, ha, b, hb, ⟨h1, h2⟩, h3.symm⟩

theorem firstPair_keyLt {rs : List Rec} {p : Id × Id} (h : firstPair rs = some p) :
    keyLt p.1 p.2 = true := by
  obtain ⟨a, -, b, -, hk, -, rfl⟩ := mem_meetingPairs.1 (firstPair_some h)
  exact hk

theorem iuKeeps_takeBurnt (s : State) : IuKeeps s (takeBurnt s) := by
  have h := (iuKeeps_onContent (burntSpan s) s).trans
    (iuKeeps_triggerAll ((burntRecs s).map Prod.fst) _)
  rw [← map_onContent] at h
  exact h

theorem iuKeeps_settleSpans (n : Nat) (s : State) : IuKeeps s (settleSpans n s) := by
  induction n generalizing s with
  | zero => exact .refl s
  | succ n ih =>
    unfold settleSpans
    split
    · rename_i p hp
      exact ((iuKeeps_foldInto (firstPair_keyLt hp) s).trans (iuKeeps_triggerAll _ _)).trans (ih _)
    · split
      · exact .refl s
      · exact (iuKeeps_takeBurnt s).trans (ih _)

theorem iuKeeps_grown (s : State) : IuKeeps s (grown s) := iuKeeps_settleSpans _ s

/-- A new record takes its place: the links stand where it is ACTIVE, or where its id was not held and is
held ENDED (R3, R7, R15, R22). -/
theorem iuKeeps_addRec {s t : State} {rs : List Rec} {r : Rec} (h : IuRest s t)
    (hm : makeRoom s.iu.records = some rs) (hr : t.iu.records = addRec rs r)
    (hk : shapeOf r.st = .active ∨
      shapeOf r.st = .ended ∧
        (Capped s.iu.records → Chained (look s.iu.records) → findRec s.iu.records r.id = none))
    (he : t.iu.endSent = s.iu.endSent) (hq : t.li = s.li) : IuKeeps s t where
  rest := h
  capped := fun c => by rw [hr]; exact c.add hm r
  chains := fun c x => by
    rw [hr, look_addRec]
    have x' := x.of_makeRoom c.distinct hm
    rcases hk with hk | ⟨hk, hn⟩
    · rw [hk]; exact x'.update_active r.id
    · rw [hk]
      exact x'.update_idle (.inl (look_none.2 (makeRoom_not_held (hn c x) hm))) (.inr rfl)
  answered := fun x => by rw [he]; exact x
  queue := fun x => by rw [hq]; exact x
  claims := by rw [hq]

theorem iuKeeps_declare (s : State) : IuKeeps s (declare s) := by
  unfold declare
  split
  · exact iuKeeps_raise s (.inr (.inl rfl))
  · rename_i rs hm
    exact (iuKeeps_addRec (r := declaredRec s) (iuRest_iu s _ _ _ _ _ _) hm rfl (.inl rfl) rfl rfl).trans
      ((iuKeeps_placeIncident _ _).trans (iuKeeps_grown _))

theorem iuKeeps_extendRecords (s : State) : IuKeeps s (extendRecords s) := by
  rw [extendRecords_eq]
  split
  · exact .refl s
  · exact (iuKeeps_onContent _ s).trans ((iuKeeps_triggerAll _ _).trans (iuKeeps_grown _))

theorem iuKeeps_actOnAlarm (s : State) : IuKeeps s (actOnAlarm s) := by
  unfold actOnAlarm
  split
  · exact iuKeeps_extendRecords s
  · exact iuKeeps_declare s

/-- Ending a chain at an ACTIVE record (R21). -/
theorem iuKeeps_endChain {g : Id} {s : State} (hg : look s.iu.records g = some .active) :
    IuKeeps s (endChain g s) where
  rest := iuRest_endChain g s
  capped := fun c => c.of_ids (endChain_ids g s)
  chains := fun c h => h.endChain c.length hg
  answered := id
  queue := id
  claims := rfl

theorem look_of_resolve {rs : List Rec} {id : Id} {r : Rec} (h : resolve rs id = some r)
    (he : isEnded r = false) : look rs r.id = some .active := by
  obtain ⟨hf, hn⟩ := resolve_some h
  rw [look_of_find hf]
  cases hst : r.st with
  | active c d => rfl
  | absorbed y => exact absurd hst (hn y)
  | ended n t => rw [isEnded_iff.2 ⟨n, t, hst⟩] at he; cases he

theorem iuKeeps_receiveEnd (id : Id) (s : State) : IuKeeps s (receiveEnd id s) := by
  unfold receiveEnd
  split
  · rename_i hn
    split
    · exact .refl s
    · rename_i rs hm
      exact iuKeeps_addRec (iuRest_addEnded rs id s) hm rfl
        (.inr ⟨rfl, fun c h => h.not_held c.length hn⟩) rfl rfl
  · rename_i r hr
    split
    · exact .refl s
    · rename_i he
      exact iuKeeps_endChain (look_of_resolve hr (by simpa using he))

theorem iuKeeps_applyView (id : Id) (c : Content) (s : State) : IuKeeps s (applyView id c s).1 := by
  unfold applyView
  split
  · split
    · exact iuKeeps_raise s (.inr (.inl rfl))
    · rename_i rs hm
      exact iuKeeps_addRec (iuRest_setRecords _ s) hm rfl (.inl rfl) rfl rfl
  · split
    · exact iuKeeps_replaceContent _ _ _ s
    · exact iuKeeps_answerEnd _ s
    · exact .refl s

theorem iuKeeps_dropSaid (id : Id) (b : Bool) (s : State) : IuKeeps s (dropSaid id b s) :=
  .of_same (iuRest_dropSaid id b s) (by simp) (by unfold dropSaid; split <;> rfl)
    (by unfold dropSaid; split <;> rfl)

theorem iuKeeps_divergeFrom (id : Id) (c : Content) (s : State) : IuKeeps s (divergeFrom id c s) := by
  unfold divergeFrom
  split
  · exact .refl s
  · split
    · exact iuKeeps_triggerReannounce _ s
    · exact .refl s

theorem iuKeeps_receiveActive (id : Id) (c : Content) (s : State) :
    IuKeeps s (receiveActive id c s) := by
  unfold receiveActive
  dsimp only
  split
  · exact iuKeeps_applyView _ _ s
  · exact (iuKeeps_applyView _ _ s).trans ((iuKeeps_grown _).trans
      ((iuKeeps_dropSaid _ _ _).trans (iuKeeps_divergeFrom _ _ _)))

theorem iuKeeps_absorbIntoEnded (x : Id) (s : State) : IuKeeps s (absorbIntoEnded x s) := by
  unfold absorbIntoEnded
  split
  · rename_i hx
    split
    · exact iuKeeps_raise s (.inr (.inl rfl))
    · rename_i rs hm
      exact iuKeeps_addRec (iuRest_addEnded rs x s) hm rfl (.inr ⟨rfl, fun _ _ => hx⟩) rfl rfl
  · rename_i r hr
    split
    · rename_i hst
      exact iuKeeps_endChain (by rw [look_of_find hr, hst]; rfl)
    · exact .refl s
    · exact iuKeeps_answerEnd _ s

/-- A notice's absorbed id is linked to its survivor, whose chain ends elsewhere (R13, R17). -/
theorem iuKeeps_absorbIntoActive {x y : Id} {e : Rec} {s : State} (hk : keyLt y x = true)
    (hy : resolve s.iu.records y = some e) (he : isEnded e = false) :
    IuKeeps s (absorbIntoActive x y e.id s) := by
  have hend := endsAt_of_resolveWithin hy he
  have ha := look_of_resolve hy he
  unfold absorbIntoActive
  split
  · rename_i hx
    split
    · exact iuKeeps_raise s (.inr (.inl rfl))
    · rename_i rs hm
      refine ⟨iuRest_setRecords _ s, fun c => c.add hm _, fun c h => ?_, id, id, rfl⟩
      rw [setRecords_iu_records, look_addRec]
      refine (h.of_makeRoom c.distinct hm).update_link
        (.inl (look_none.2 (makeRoom_not_held hx hm))) hk (hend.of_makeRoom c.distinct hm) ?_
      rintro rfl
      have := look_none.2 hx
      rw [ha] at this; cases this
  · rename_i r hr
    split
    · rename_i c d hst
      split
      · exact .refl s
      · rename_i hne
        have hcx : (findRec s.iu.records x).bind contentOf = some c := by
          rw [hr]; simp [contentOf, hst]
        obtain ⟨ce, hce⟩ : ∃ ce, (findRec s.iu.records e.id).bind contentOf = some ce := by
          obtain ⟨c, d, h⟩ := look_active.1 ha
          exact ⟨c, content_held.2 ⟨d, h⟩⟩
        have hids : (setRecState (foldInto e.id x s).iu.records x (.absorbed y)).map Rec.id =
            s.iu.records.map Rec.id := by rw [setRecState_ids, foldInto_ids]
        refine ⟨(iuRest_foldInto _ _ s).trans (iuRest_setRecords _ _), fun c => c.of_ids hids,
          fun _ h => ?_, fun h => ?_, fun h => ?_, ?_⟩
        · have hx : findRec (foldInto e.id x s).iu.records x ≠ none := by
            rw [Ne, ← look_none, foldInto_look hce hcx, Function.update_self]; simp
          rw [setRecords_iu_records, look_setRecState _ hx, foldInto_look hce hcx,
            Function.update_idem]
          exact h.update_link (.inr (active_of_content hcx)) hk hend (fun h => hne h.symm)
        · simpa using h
        · simpa using h
        · simp
    · exact .refl s
    · exact iuKeeps_answerEnd _ s

theorem iuKeeps_absorbNoted {x y : Id} (hk : keyLt y x = true) (s : State) :
    IuKeeps s (absorbNoted x y s) := by
  unfold absorbNoted
  split
  · exact .refl s
  · rename_i e hy
    split
    · exact iuKeeps_absorbIntoEnded x s
    · rename_i he
      exact iuKeeps_absorbIntoActive hk hy (by simpa using he)

theorem iuKeeps_receiveAbsorbed {x y : Id} (hk : keyLt y x = true) (c : Content) (s : State) :
    IuKeeps s (receiveAbsorbed x y c s) := by
  unfold receiveAbsorbed
  dsimp only
  split
  · exact iuKeeps_applyView _ _ s
  · exact (iuKeeps_applyView _ _ s).trans ((iuKeeps_absorbNoted hk _).trans ((iuKeeps_grown _).trans
      ((iuKeeps_dropSaid _ _ _).trans ((iuKeeps_divergeFrom _ _ _).trans (iuKeeps_divergeFrom _ _ _)))))

theorem iuKeeps_catchUpAll (l : List Id) (s : State) : IuKeeps s (catchUpAll l s) := by
  induction l generalizing s with
  | nil => exact .refl s
  | cons id ids ih => exact (iuKeeps_catchUp id s).trans (ih _)

theorem iuKeeps_answerAll (l : List Id) (s : State) : IuKeeps s (answerAll l s) := by
  induction l generalizing s with
  | nil => exact .refl s
  | cons id ids ih =>
    unfold answerAll
    split
    · exact (iuKeeps_answerEnd id s).trans (ih _)
    · exact ih _

theorem iuKeeps_takeStatus (st : StatusPart) (s : State) : IuKeeps s (takeStatus st s) := by
  unfold takeStatus
  dsimp only
  have h := (iuKeeps_catchUpAll ((match st.gov with | none => [] | some g => [g.id]) ++
    st.entries.map Entry.id) s).trans (iuKeeps_answerAll (mentions st) _)
  split
  · exact h
  · exact h.trans (iuKeeps_triggerReannounce _ _)

/-- A notice that passes R14's checks names a survivor of lower key. -/
theorem readIncident_absorbed {n : Nat} {b : Octets} {x y : Id} {c : Content}
    (h : readIncident n b = some (.absorbed x y c)) : keyLt y x = true := by
  unfold readIncident at h
  split at h
  · split at h
    · cases h
    · split at h
      · split at h
        · cases h; assumption
        · cases h
      · cases h
    · cases h
    · cases h
  · cases h

end Sys2Proof.Machine
end

section
/-! PROOFS. The claim-kind frames (R106): the few situations that the own claim, the claim-kind frames that wait
and the one that is being sent can be in, and what each act of the Claim Unit and of the Line Interface makes of
them. -/

namespace Sys2Proof.Machine

/-! ## The situations -/

/-- The situations of the own claim, of the claim-kind frames that wait and of the one on the line. -/
inductive ClaimState : OwnClaim → List Body → Option Body → Prop where
  /-- No own claim: one frame at most of a claim that is over, and behind a CLAIM being sent only its end. -/
  | past {q : List Body} {line : Option Body} (one : q.length ≤ 1)
      (after : ∀ b, line = some b → ∀ x ∈ q, claimNumber x = none ∧ frameNumber x = claimNumber b) :
      ClaimState .none q line
  /-- Nothing waits and nothing is being sent. -/
  | idle (own : OwnClaim) : ClaimState own [] none
  /-- The own CLAIM waits behind what is left of a claim that is over. -/
  | waiting {c : Claim} {old : List Body} {b : Body} {line : Option Body}
      (number : claimNumber b = some c.number) (one : old.length ≤ 1)
      (others : ∀ x ∈ old, frameNumber x ≠ some c.number)
      (online : ∀ y, line = some y → frameNumber y ≠ some c.number)
      (after : ∀ y, line = some y → ∀ x ∈ old, claimNumber x = none ∧ frameNumber x = claimNumber y) :
      ClaimState (.settling c none) (old ++ [b]) line
  /-- The own CLAIM is being sent. -/
  | sending {c : Claim} {b : Body} (number : claimNumber b = some c.number) :
      ClaimState (.settling c none) [] (some b)
  /-- The renewal of a grant waits. -/
  | renewing {c : Claim} {b : Body} (number : claimNumber b = some c.number) :
      ClaimState (.granted c none) [b] none
  /-- The renewal of a grant is being sent. -/
  | renewed {c : Claim} {b : Body} (number : claimNumber b = some c.number) :
      ClaimState (.granted c none) [] (some b)

theorem frameNumber_of_claim {b : Body} {n : BitVec 8} (h : claimNumber b = some n) :
    frameNumber b = some n := by cases b <;> simp_all [claimNumber, frameNumber]

theorem class_of_claim {b : Body} {n : BitVec 8} (h : claimNumber b = some n) : bodyClass b = 1 := by
  cases b <;> simp_all [claimNumber, bodyClass]

theorem frameNumber_isSome {b : Body} (h : bodyClass b = 1) : frameNumber b ≠ none := by
  cases b <;> simp_all [bodyClass, frameNumber]

theorem claimOnLine_class {s : State} {b : Body} (h : claimOnLine s = some b) : bodyClass b = 1 := by
  unfold claimOnLine at h
  simpa using (Option.filter_eq_some_iff.1 h).2

theorem claimOnLine_congr {s t : State} (h : t.li.sending = s.li.sending) :
    claimOnLine t = claimOnLine s := by unfold claimOnLine; rw [h]

/-- The situations are those the claim frames' form gives. -/
theorem claimFrames_iff (s : State) :
    ClaimFrames s ↔ ClaimState s.cu.own (claimFrames s.li.tx) (claimOnLine s) := by
  have hq : ∀ b ∈ claimFrames s.li.tx, frameNumber b ≠ none :=
    fun b hb => frameNumber_isSome (mem_claimFrames.1 hb).1
  have hl : ∀ b, claimOnLine s = some b → frameNumber b ≠ none :=
    fun b hb => frameNumber_isSome (claimOnLine_class hb)
  constructor
  · rintro ⟨⟨old, new, he, ho1, ho, hn1, hn, hafter⟩, hon, hun, hsent, hren⟩
    cases hown : s.cu.own with
    | none =>
      have hnew : new = [] := by
        rw [List.eq_nil_iff_forall_not_mem]
        intro b hb
        refine hq b (by rw [he]; simp [hb]) ?_
        simpa [hown, ownNumber] using (hn b hb).1
      rw [he, hnew, List.append_nil]
      refine .past ho1 fun b hb => hafter b hb ?_
      simpa [hown, ownNumber] using hl b hb
    | settling c t =>
      cases t with
      | some t =>
        obtain ⟨h1, h2⟩ := hsent c t (.inl hown)
        rw [h1, h2]; exact .idle _
      | none =>
        have hnum : ownNumber s.cu.own = some c.number := by rw [hown]; rfl
        rcases hun c hown with ⟨h1, h2⟩ | ⟨b, hb, hbn⟩ | ⟨b, hb, hbn⟩
        · rw [h1, h2]; exact .idle _
        · have hb' : b ∈ new := by
            rw [he, List.mem_append] at hb
            refine hb.resolve_left fun x => ho b x ?_
            rw [hnum, frameNumber_of_claim hbn]
          have hnew : new = [b] := by
            obtain ⟨x, rfl⟩ := List.length_eq_one_iff.1
              (Nat.le_antisymm hn1 (List.length_pos_of_mem hb'))
            rw [List.mem_singleton.1 hb']
          have hline : ∀ y, claimOnLine s = some y → frameNumber y ≠ some c.number := by
            intro y hy e
            have := (hon y hy (by rw [e, hnum])).2
            rw [this] at hb; cases hb
          rw [he, hnew]
          refine .waiting hbn ho1 (fun x hx => by rw [← hnum]; exact ho x hx) hline ?_
          exact fun y hy => hafter y hy (by rw [hnum]; exact hline y hy)
        · rw [(hon b hb (by rw [hnum, frameNumber_of_claim hbn])).2, hb]; exact .sending hbn
    | granted c t =>
      cases t with
      | some t =>
        obtain ⟨h1, h2⟩ := hsent c t (.inr hown)
        rw [h1, h2]; exact .idle _
      | none =>
        have hnum : ownNumber s.cu.own = some c.number := by rw [hown]; rfl
        obtain ⟨hw, hr⟩ := hren c hown
        have hold : old = [] := by
          rw [List.eq_nil_iff_forall_not_mem]
          intro b hb
          exact ho b hb (by rw [hnum, frameNumber_of_claim (hw b (by rw [he]; simp [hb]))])
        rw [hold, List.nil_append] at he
        cases hline : claimOnLine s with
        | some b =>
          have hbn := hr b hline
          rw [(hon b hline (by rw [hnum, frameNumber_of_claim hbn])).2]; exact .renewed hbn
        | none =>
          rw [he]
          cases new with
          | nil => exact .idle _
          | cons b bs =>
            have : bs = [] := List.eq_nil_of_length_eq_zero (by simpa using hn1)
            subst this
            exact .renewing (hw b (by rw [he]; simp))
  · intro h
    generalize hown : s.cu.own = own at h
    generalize hQ : claimFrames s.li.tx = q at h hq
    generalize hL : claimOnLine s = line at h hl
    have build (hw : ∃ old new : List Body, q = old ++ new ∧ old.length ≤ 1 ∧
          (∀ b ∈ old, frameNumber b ≠ ownNumber own) ∧ new.length ≤ 1 ∧
          (∀ b ∈ new, frameNumber b = ownNumber own ∧ claimNumber b = ownNumber own) ∧
          (∀ b, line = some b → frameNumber b ≠ ownNumber own →
            ∀ x ∈ old, claimNumber x = none ∧ frameNumber x = claimNumber b))
        (ho : ∀ b, line = some b → frameNumber b = ownNumber own →
          claimNumber b = ownNumber own ∧ q = [])
        (hu : ∀ c, own = .settling c none → (q = [] ∧ line = none) ∨
          (∃ b ∈ q, claimNumber b = some c.number) ∨ ∃ b, line = some b ∧ claimNumber b = some c.number)
        (hs : ∀ c t, own = .settling c (some t) ∨ own = .granted c (some t) → q = [] ∧ line = none)
        (hr : ∀ c, own = .granted c none → (∀ b ∈ q, claimNumber b = some c.number) ∧
          ∀ b, line = some b → claimNumber b = some c.number) : ClaimFrames s :=
      ⟨by rw [hQ, hown, hL]; exact hw, by rw [hQ, hown, hL]; exact ho, by rw [hQ, hown, hL]; exact hu,
        by rw [hQ, hown, hL]; exact hs, by rw [hQ, hown, hL]; exact hr⟩
    cases h with
    | past one after =>
      exact build ⟨q, [], by simp, one, fun b hb => hq b hb, by simp, by simp, fun b hb _ => after b hb⟩
        (fun b hb e => absurd e (hl b hb)) (by simp) (by simp) (by simp)
    | idle => exact build ⟨[], [], by simp⟩ (by simp) (by simp) (by simp) (by simp)
    | @waiting c old b _ number one others online after =>
      have hb := frameNumber_of_claim number
      exact build ⟨old, [b], rfl, one, others, by simp, by simp [ownNumber, hb, number],
          fun y hy _ => after y hy⟩
        (fun y hy e => absurd e (online y hy))
        (fun c' e => by cases e; exact .inr (.inl ⟨b, by simp, number⟩)) (by simp) (by simp)
    | @sending c b number =>
      exact build ⟨[], [], by simp⟩ (fun y hy _ => by cases hy; exact ⟨number, rfl⟩)
        (fun c' e => by cases e; exact .inr (.inr ⟨b, rfl, number⟩)) (by simp) (by simp)
    | @renewing c b number =>
      have hb := frameNumber_of_claim number
      exact build ⟨[], [b], rfl, by simp, by simp, by simp, by simp [ownNumber, hb, number], by simp⟩
        (by simp) (by simp) (by simp) (fun c' e => by cases e; simp [number])
    | @renewed c b number =>
      exact build ⟨[], [], by simp⟩ (fun y hy _ => by cases hy; exact ⟨number, rfl⟩) (by simp) (by simp)
        (fun c' e => by cases e; simp [number])

/-- At most two claim-kind frames wait (R106). -/
theorem ClaimState.length {own : OwnClaim} {q : List Body} {line : Option Body}
    (h : ClaimState own q line) : q.length ≤ 2 := by
  cases h with
  | past one _ => omega
  | waiting _ one _ _ _ => simp only [List.length_append, List.length_singleton]; omega
  | _ => simp

/-- Without an own claim one at most waits (R106). -/
theorem ClaimState.length_of_none {q : List Body} {line : Option Body} (h : ClaimState .none q line) :
    q.length ≤ 1 := by
  cases h with
  | past one _ => exact one
  | idle => simp

/-! ## The acts of the Claim Unit -/

/-- A frame that stands among others, the only one of its number, is the last where it is so. -/
theorem split_last {p : Body → Prop} {old l t : List Body} {b y : Body} (h : old ++ [b] = l ++ y :: t)
    (hy : p y) (ho : ∀ x ∈ old, ¬ p x) : l = old ∧ t = [] ∧ y = b := by
  rcases List.eq_nil_or_concat t with rfl | ⟨t', z, rfl⟩
  · obtain ⟨h1, h2⟩ := List.append_inj' h rfl
    cases h2
    exact ⟨h1.symm, rfl, rfl⟩
  · have e : old ++ [b] = (l ++ y :: t') ++ [z] := by simpa using h
    obtain ⟨h1, -⟩ := List.append_inj' e rfl
    exact absurd hy (ho y (by rw [h1]; simp))

theorem isClaimNo_iff {n : BitVec 8} {f : TxFrame} : isClaimNo n f = true ↔ claimNumber f.body = some n := by
  simp [isClaimNo]

theorem any_claimNo {q : List TxFrame} {n : BitVec 8} : q.any (isClaimNo n) = false ↔
    ∀ b ∈ claimFrames q, claimNumber b ≠ some n := by
  simp only [List.any_eq_false, isClaimNo_iff]
  constructor
  · intro h b hb
    obtain ⟨-, f, hf, rfl⟩ := mem_claimFrames.1 hb
    exact h f hf
  · intro h f hf e
    exact h f.body (mem_claimFrames.2 ⟨class_of_claim e, f, hf, rfl⟩) e

theorem claimFrames_split {l t : List TxFrame} {y : TxFrame} (h : bodyClass y.body = 1) :
    claimFrames (l ++ y :: t) = claimFrames l ++ y.body :: claimFrames t := by
  simp [claimFrames_append, claimFrames_cons, h]

/-- A claim that settles is withdrawn: its waiting CLAIM goes, or its WITHDRAW waits (R101, R153). -/
theorem ClaimState.withdraw {c : Claim} {due : Option Time} {q r : List TxFrame} {line : Option Body}
    {a : Nat} (h : ClaimState (.settling c due) (claimFrames q) line)
    (hp : Places (.withdraw a c.slot c.number) q r) (hs : (classesOf q).Pairwise (· ≤ ·)) :
    ClaimState .none (claimFrames r) line := by
  have gone (hu : q.any (isClaimNo c.number) = false) : claimFrames q = [] ∧
      ∀ b, line = some b → claimNumber b = some c.number := by
    rw [any_claimNo] at hu
    generalize hQ : claimFrames q = Q at h hu
    cases h with
    | idle => simp
    | waiting number _ _ _ _ => exact absurd number (hu _ (by simp))
    | sending number => exact ⟨rfl, by rintro b ⟨⟩; exact number⟩
  cases hp with
  | refused _ hn =>
    rw [(gone (hn.unsent _ _ _ rfl)).1]
    exact .past (by simp) (by simp)
  | replaces hr =>
    obtain ⟨l, y, t, rfl, hy, rfl⟩ := replaceIn_split hr
    cases hy
  | joins _ hn =>
    obtain ⟨h1, h2⟩ := gone (hn.unsent _ _ _ rfl)
    rw [claimFrames_insertTail rfl hs, h1]
    refine .past (by simp) fun b hb x hx => ?_
    rw [List.nil_append, List.mem_singleton] at hx
    subst hx
    exact ⟨rfl, by rw [h2 b hb]; rfl⟩
  | removes a' k n e hw =>
    cases e
    obtain ⟨l, y, t, rfl, hy, -, hr⟩ := removeFirst_split hw
    have hyn := isClaimNo_iff.1 hy
    rw [hr]
    rw [claimFrames_split (class_of_claim hyn)] at h
    rw [claimFrames_append]
    generalize hQ : claimFrames l ++ y.body :: claimFrames t = Q at h
    cases h with
    | idle => simp at hQ
    | sending _ => simp at hQ
    | waiting number one others online after =>
      obtain ⟨h1, h2, -⟩ := split_last (p := fun b => frameNumber b = some c.number) hQ.symm
        (frameNumber_of_claim hyn) others
      rw [h1, h2, List.append_nil]
      exact .past one after

/-- A granted claim ends: its RELEASE takes the place of its waiting renewal, or waits (R103, R153). -/
theorem ClaimState.release {c : Claim} {due : Option Time} {q r : List TxFrame} {line : Option Body}
    {a : Nat} (h : ClaimState (.granted c due) (claimFrames q) line)
    (hp : Places (.release a c.slot c.number) q r) (hs : (classesOf q).Pairwise (· ≤ ·)) :
    ClaimState .none (claimFrames r) line := by
  have gone (hu : ∀ x ∈ q, takesPlaceOf (.release a c.slot c.number) x.body = false) :
      claimFrames q = [] ∧ ∀ b, line = some b → claimNumber b = some c.number := by
    have hu : ∀ b ∈ claimFrames q, claimNumber b ≠ some c.number := by
      intro b hb
      obtain ⟨-, f, hf, rfl⟩ := mem_claimFrames.1 hb
      simpa [takesPlaceOf] using hu f hf
    generalize hQ : claimFrames q = Q at h hu
    cases h with
    | idle => simp
    | renewing number => exact absurd number (hu _ (by simp))
    | renewed number => exact ⟨rfl, by rintro b ⟨⟩; exact number⟩
  cases hp with
  | refused _ hn => rw [(gone hn.place).1]; exact .past (by simp) (by simp)
  | removes _ _ _ e _ => cases e
  | joins _ hn =>
    obtain ⟨h1, h2⟩ := gone hn.place
    rw [claimFrames_insertTail rfl hs, h1]
    refine .past (by simp) fun b hb x hx => ?_
    rw [List.nil_append, List.mem_singleton] at hx
    subst hx
    exact ⟨rfl, by rw [h2 b hb]; rfl⟩
  | replaces hr =>
    obtain ⟨l, y, t, rfl, hy, rfl⟩ := replaceIn_split hr
    have hyn : claimNumber y.body = some c.number := by simpa [takesPlaceOf] using hy
    rw [claimFrames_split (class_of_claim hyn)] at h
    rw [claimFrames_split rfl]
    generalize hQ : claimFrames l ++ y.body :: claimFrames t = Q at h
    cases h with
    | idle => simp at hQ
    | renewed _ => simp at hQ
    | renewing number =>
      have : (claimFrames l ++ y.body :: claimFrames t).length = 1 := by rw [hQ]; rfl
      refine .past ?_ (by simp)
      simp only [List.length_append, List.length_cons] at this ⊢
      omega

/-! ## The acts of the Line Interface -/

/-- The head frame begins to be sent (R154). -/
theorem ClaimState.start {own : OwnClaim} {b : Body} {q : List Body}
    (h : ClaimState own (b :: q) none) : ClaimState own q (some b) := by
  generalize hQ : b :: q = Q at h
  generalize hL : (none : Option Body) = line at h
  cases h with
  | past one _ =>
    subst hQ
    have : q = [] := List.eq_nil_of_length_eq_zero (by simpa using one)
    subst this
    exact .past (by simp) (by simp)
  | idle => cases hQ
  | @waiting c old x _ number one others online after =>
    cases old with
    | nil => cases hQ; exact .sending number
    | cons o os =>
      have : os = [] := List.eq_nil_of_length_eq_zero (by simpa using one)
      subst this
      cases hQ
      exact .waiting (old := []) number (by simp) (by simp)
        (by rintro y ⟨⟩; exact others b (by simp)) (by simp)
  | sending _ => cases hL
  | renewing number => cases hQ; exact .renewed number
  | renewed _ => cases hL

/-- The own claim once the frame `b` has been sent whole: its settle timer starts with its CLAIM (R155). -/
def ownSent (t : Time) (b : Body) : OwnClaim → OwnClaim
  | .settling c none => if claimNumber b = some c.number then .settling c (some t) else .settling c none
  | own => own

theorem claimSent_own (b : Body) (s : State) :
    (claimSent b s).cu.own = ownSent (s.now + settleTime) b s.cu.own := by
  unfold claimSent ownSent
  cases hb : claimNumber b with
  | none => cases s.cu.own with
    | settling c t => cases t <;> simp
    | _ => rfl
  | some n => cases ho : s.cu.own with
    | settling c t =>
      cases t with
      | some t => exact ho
      | none =>
        by_cases h : c.number = n
        · simp [h, setOwn]
        · simp [h, Ne.symm h, ho]
    | _ => exact ho

/-- A frame sent whole is off the line (R155). -/
theorem ClaimState.sent {own : OwnClaim} {b : Body} {q : List Body} (t : Time)
    (h : ClaimState own q (some b)) : ClaimState (ownSent t b own) q none := by
  generalize hL : some b = line at h
  cases h with
  | past one _ => exact .past one (by simp)
  | idle => cases hL
  | @waiting c old x _ number one others online after =>
    have hne : claimNumber b ≠ some c.number := fun e => online b hL.symm (frameNumber_of_claim e)
    simp only [ownSent, hne, if_false]
    exact .waiting number one others (by simp) (by simp)
  | @sending c x number =>
    cases hL
    simp only [ownSent, number, if_true]
    exact .idle _
  | renewing _ => cases hL
  | renewed _ => exact .idle _

/-- A collided frame that is dropped is off the line; an own claim whose CLAIM it was is none (R91, R152). -/
theorem ClaimState.dropped {own : OwnClaim} {b : Body} {q : List Body}
    (h : ClaimState own q (some b)) : ClaimState own q none := by
  generalize hL : some b = line at h
  cases h with
  | past one _ => exact .past one (by simp)
  | idle => exact .idle _
  | waiting number one others online after => exact .waiting number one others (by simp) (by simp)
  | sending _ => exact .idle _
  | renewing number => exact .renewing number
  | renewed _ => exact .idle _

/-- A claim that is reported not sent is over (R91, R152). -/
theorem ClaimState.unsent {c : Claim} {due : Option Time} {b : Body} {q : List Body}
    (hb : claimNumber b = some c.number) (h : ClaimState (.settling c due) q (some b)) :
    ClaimState .none q none := by
  generalize hL : some b = line at h
  cases h with
  | idle => exact .idle _
  | waiting number one others online after =>
    exact absurd (frameNumber_of_claim hb) (online b hL.symm)
  | sending _ => exact .idle _

/-- A collided claim-kind frame returns before those that wait, where none of those is its end (R156). -/
theorem ClaimState.returned {own : OwnClaim} {b : Body} {q : List Body}
    (h : ClaimState own q (some b)) (hq : ∀ x ∈ q, frameNumber x ≠ none)
    (hn : ∀ x ∈ q, ∀ n, claimNumber b = some n → claimNumber x = none → frameNumber x ≠ some n) :
    ClaimState own (b :: q) none := by
  have none_left (old : List Body) (hold : ∀ x ∈ old, x ∈ q)
      (ha : ∀ x ∈ old, claimNumber x = none ∧ frameNumber x = claimNumber b) : old = [] := by
    rw [List.eq_nil_iff_forall_not_mem]
    intro x hx
    obtain ⟨h1, h2⟩ := ha x hx
    cases hc : claimNumber b with
    | none => exact hq x (hold x hx) (h2.trans hc)
    | some n => exact hn x (hold x hx) n hc h1 (h2.trans hc)
  generalize hL : some b = line at h
  cases h with
  | past one after =>
    rw [none_left q (fun _ hx => hx) (after b hL.symm)]
    exact .past (by simp) (by simp)
  | idle => cases hL
  | @waiting c old y _ number one others online after =>
    have hold := none_left old (fun x hx => by simp [hx]) (after b hL.symm)
    subst hold
    refine .waiting (old := [b]) number (by simp) ?_ (by simp) (by simp)
    intro x hx
    rw [List.mem_singleton.1 hx]
    exact online b hL.symm
  | sending number =>
    cases hL
    exact .waiting (old := []) number (by simp) (by simp) (by simp) (by simp)
  | renewing _ => cases hL
  | renewed number =>
    cases hL
    exact .renewing number

/-- What becomes of a frame that is off the line and gone leaves the rest (R155, R156). -/
theorem ClaimState.off {own : OwnClaim} {q : List Body} {line : Option Body}
    (h : ClaimState own q line) : ClaimState own q none := by
  cases line with
  | none => exact h
  | some b => exact h.dropped

/-- A collided CLAIM and the WITHDRAW of it that waits go together (R156). -/
theorem ClaimState.withdrawn {own : OwnClaim} {b w : Body} {l t : List Body}
    (h : ClaimState own (l ++ w :: t) (some b)) (hw : claimNumber w = none) :
    ClaimState own (l ++ t) none := by
  generalize hL : some b = line at h
  generalize hQ : l ++ w :: t = q at h
  cases h with
  | past one _ =>
    refine .past ?_ (by simp)
    have := congrArg List.length hQ
    simp only [List.length_append, List.length_cons] at this ⊢
    omega
  | idle => cases hL
  | @waiting c old y _ number one others online after =>
    rcases List.eq_nil_or_concat t with rfl | ⟨t', z, rfl⟩
    · obtain ⟨-, e⟩ := List.append_inj' hQ rfl
      cases e
      rw [number] at hw; cases hw
    · have e : (l ++ w :: t') ++ [z] = old ++ [y] := by simpa using hQ
      obtain ⟨e, h2⟩ := List.append_inj' e rfl
      cases h2
      have : (l ++ t').length = 0 := by
        have := congrArg List.length e
        simp only [List.length_append, List.length_cons] at this ⊢
        omega
      rw [List.concat_eq_append, ← List.append_assoc, List.eq_nil_of_length_eq_zero this]
      exact .waiting number (by simp) (by simp) (by simp) (by simp)
  | sending _ => simp at hQ
  | renewing _ => cases hL
  | renewed _ => simp at hQ

/-- What CONFIG_FAULT leaves of the own claim: a GRANTED one stands (R104). -/
def faultOwn : OwnClaim → OwnClaim
  | .granted c t => .granted c t
  | .settling _ _ | .none => .none

theorem enterConfigFault_own (s : State) : (enterConfigFault s).cu.own = faultOwn s.cu.own := by
  change (match s.cu.own with
    | .granted c t => OwnClaim.granted c t
    | .settling _ _ | .none => .none) = _
  cases s.cu.own <;> rfl

theorem faultOwn_number (own : OwnClaim) :
    ownNumber (faultOwn own) = none ∨ ownNumber (faultOwn own) = ownNumber own := by
  cases own with
  | granted c t => exact .inr rfl
  | settling c t => exact .inl rfl
  | none => exact .inl rfl

/-- In CONFIG_FAULT a claim that settles is dropped, and no frame waits (R104, R171). -/
theorem ClaimState.fault {own : OwnClaim} {q : List Body} {line : Option Body}
    (h : ClaimState own q line) : ClaimState (faultOwn own) [] line := by
  cases h with
  | past _ _ => exact .past (by simp) (by simp)
  | idle own => exact .idle _
  | renewing _ => exact .idle _
  | renewed number => exact .renewed number
  | waiting _ _ _ _ _ => exact .past (by simp) (by simp)
  | sending _ => exact .past (by simp) (by simp)

end Sys2Proof.Machine
end

section
/-! PROOFS. What every event keeps: the capacities, the lamps, the form of the queue and of the claim view, the
claim-kind frames and the links of the list (O54, O55). -/

namespace Sys2Proof.Machine

/-! ## The relation -/

/-- What an event keeps of the capacities, the lamps, the queue, the claim view and the links. -/
structure KeepsForms (s t : State) : Prop where
  bounded : Bounded s → Bounded t
  lamp : OneLamp s → OneLamp t
  queue : TxForm s.li.tx → TxForm t.li.tx
  view : ViewForm s → ViewForm t
  chains : Bounded s → Chained (look s.iu.records) → Chained (look t.iu.records)

theorem KeepsForms.refl (s : State) : KeepsForms s s := ⟨id, id, id, id, fun _ => id⟩

theorem KeepsForms.trans {s t u : State} (h : KeepsForms s t) (g : KeepsForms t u) : KeepsForms s u :=
  ⟨fun x => g.bounded (h.bounded x), fun x => g.lamp (h.lamp x), fun x => g.queue (h.queue x),
    fun x => g.view (h.view x), fun b x => g.chains (h.bounded b) (h.chains b x)⟩

/-- The claim-kind frames as the Claim Unit's conduct leaves them, with what that rests on: CONFIG_FAULT holds
none, and no CLAIM can be placed with a number that a frame still carries. -/
structure ClaimsOk (s : State) : Prop where
  state : ClaimState s.cu.own (claimFrames s.li.tx) (claimOnLine s)
  fault : s.sj.mode = .configFault → claimFrames s.li.tx = []
  ready : NextNumberFree s ∨ s.cu.spacingDue ≠ none

/-- An event that keeps the forms keeps the claim-kind frames. -/
structure Keeps (s t : State) : Prop extends KeepsForms s t where
  claims : TxForm s.li.tx → ClaimsOk s → ClaimsOk t

theorem Keeps.refl (s : State) : Keeps s s := ⟨.refl s, fun _ => id⟩

theorem Keeps.trans {s t u : State} (h : Keeps s t) (g : Keeps t u) : Keeps s u :=
  ⟨h.toKeepsForms.trans g.toKeepsForms, fun q x => g.claims (h.queue q) (h.claims q x)⟩

/-! ## The claim-kind frames across an operation -/

/-- What the frames that wait or go out, and the own claim, come from, where the counter stands. -/
structure NumbersFrom (s t : State) : Prop where
  counter : t.cu.counter = s.cu.counter
  spacing : t.cu.spacingDue = s.cu.spacingDue
  waiting : ∀ b ∈ claimFrames t.li.tx, b ∈ claimFrames s.li.tx ∨ claimOnLine s = some b ∨
    frameNumber b = ownNumber s.cu.own
  line : ∀ b, claimOnLine t = some b → b ∈ claimFrames s.li.tx ∨ claimOnLine s = some b
  own : ownNumber t.cu.own = none ∨ ownNumber t.cu.own = ownNumber s.cu.own

/-- Where no frame and no own claim comes with a new number, the next number stays free (R92). -/
theorem NumbersFrom.ready {s t : State} (h : NumbersFrom s t)
    (r : NextNumberFree s ∨ s.cu.spacingDue ≠ none) :
    NextNumberFree t ∨ t.cu.spacingDue ≠ none := by
  refine r.imp (fun ⟨hw, hl, ho⟩ => ⟨fun b hb => ?_, fun b hb => ?_, ?_⟩) (fun x => by rwa [h.spacing])
  · rw [h.counter]
    rcases h.waiting b hb with x | x | x
    · exact hw b x
    · exact hl b x
    · rw [x]; exact ho
  · rw [h.counter]
    rcases h.line b hb with x | x
    · exact hw b x
    · exact hl b x
  · rw [h.counter]
    rcases h.own with x | x
    · rw [x]; simp
    · rw [x]; exact ho

theorem ClaimsOk.next {s t : State} (h : ClaimsOk s) (n : NumbersFrom s t) :
    NextNumberFree t ∨ t.cu.spacingDue ≠ none := n.ready h.ready

/-- Where the own claim, the claim-kind frames and the line stand. -/
theorem ClaimsOk.of_same {s t : State} (h : ClaimsOk s) (hc : t.cu.own = s.cu.own)
    (hn : t.cu.counter = s.cu.counter) (hs : t.cu.spacingDue = s.cu.spacingDue)
    (hq : claimFrames t.li.tx = claimFrames s.li.tx) (hl : t.li.sending = s.li.sending)
    (hm : t.sj.mode = .configFault → s.sj.mode = .configFault) : ClaimsOk t where
  state := by rw [hc, hq, claimOnLine_congr hl]; exact h.state
  fault := fun x => by rw [hq]; exact h.fault (hm x)
  ready := by
    refine NumbersFrom.ready ⟨hn, hs, fun b hb => .inl (hq ▸ hb), fun b hb => .inr ?_, .inr (by rw [hc])⟩
      h.ready
    rw [← hb]; exact (claimOnLine_congr hl).symm

/-! ## Operations that leave all of it -/

/-- What the relation looks at, but for the clock. -/
def looked (s : State) := (s.iu.records, s.iu.endSent, s.cu, s.li.tx, s.li.sending, s.li.rx,
  s.su.history, s.no.acceptDue, s.no.refusedDue, s.sj.mode)

theorem ViewForm.of_heard {s t : State} (h : ViewForm s)
    (hv : t.cu.view.map heardOf = s.cu.view.map heardOf) (hn : s.now ≤ t.now) : ViewForm t := by
  have h1 : t.cu.view.map ClaimEntry.heardAt = s.cu.view.map ClaimEntry.heardAt := by
    simpa [heardOf, Function.comp_def] using congrArg (List.map fun x => x.2.2) hv
  have h2 : t.cu.view.map ClaimEntry.station = s.cu.view.map ClaimEntry.station := by
    simpa [heardOf, Function.comp_def] using congrArg (List.map fun x => x.1) hv
  refine ⟨h1 ▸ h.order, fun e he => ?_, h2 ▸ h.stations⟩
  have : e.heardAt ∈ s.cu.view.map ClaimEntry.heardAt := h1 ▸ List.mem_map_of_mem he
  obtain ⟨x, hx, e'⟩ := List.mem_map.1 this
  exact e' ▸ (h.past x hx).trans hn

theorem Keeps.of_looked {s t : State} (h : looked t = looked s) (hn : s.now ≤ t.now) : Keeps s t := by
  simp only [looked, Prod.mk.injEq] at h
  obtain ⟨hr, he, hc, hq, hl, hx, hh, ha, hf, hm⟩ := h
  refine ⟨⟨fun b => ?_, fun x => ?_, fun x => hq ▸ x, fun x => x.of_heard (by rw [hc]) hn,
    fun _ x => hr ▸ x⟩, fun _ x => x.of_same (by rw [hc]) (by rw [hc]) (by rw [hc]) (by rw [hq]) hl
    (fun x => hm ▸ x)⟩
  · exact ⟨hr ▸ b.records, hr ▸ b.distinct, he ▸ b.answered, hc ▸ b.view, hx ▸ b.rx, hq ▸ b.tx,
      hh ▸ b.history⟩
  · unfold OneLamp; rw [ha, hf]; exact x

theorem keeps_reachTime (t : Time) (s : State) : Keeps s (reachTime t s) :=
  .of_looked rfl (Nat.le_max_left _ _)

theorem keeps_raise (f : TimedFlag) (s : State) : Keeps s (raiseFlag f s) := .of_looked rfl (Nat.le_refl _)

/-! ## Operations on one part -/

theorem Bounded.capped {s : State} (h : Bounded s) : Capped s.iu.records := ⟨h.records, h.distinct⟩

/-- What the operations on the incident list keep. -/
theorem IuKeeps.keeps {s t : State} (h : IuKeeps s t) : Keeps s t where
  bounded := fun b => by
    have c := h.capped b.capped
    exact ⟨c.length, c.distinct, h.answered b.answered, by rw [h.rest.cu]; exact b.view,
      by rw [h.rest.rx]; exact b.rx, h.rest.txLen b.tx, by rw [h.rest.su]; exact b.history⟩
  lamp := fun x => by unfold OneLamp; rw [h.rest.accept, h.rest.refused]; exact x
  queue := h.queue
  view := fun x => x.of_heard (by rw [h.rest.cu]) (by rw [h.rest.now])
  chains := fun b x => h.chains b.capped x
  claims := fun _ x => x.of_same (by rw [h.rest.cu]) (by rw [h.rest.cu]) (by rw [h.rest.cu]) h.claims
    h.rest.sending (fun y => by rwa [h.rest.sj] at y)

/-- The list replaced by one with the same or fewer records and the same links. -/
theorem keeps_setRecords {rs : List Rec} {s : State} (hc : Capped s.iu.records → Capped rs)
    (hl : Capped s.iu.records → Chained (look s.iu.records) → Chained (look rs)) :
    Keeps s (setRecords rs s) where
  bounded := fun b => ⟨(hc b.capped).length, (hc b.capped).distinct, b.answered, b.view, b.rx, b.tx,
    b.history⟩
  lamp := id
  queue := id
  view := fun x => x.of_heard rfl (Nat.le_refl _)
  chains := fun b x => hl b.capped x
  claims := fun _ x => x.of_same rfl rfl rfl rfl rfl id

theorem keeps_setView {v : List ClaimEntry} {s : State}
    (hb : Bounded s → v.length ≤ 16) (hv : ViewForm s → ViewForm (setView v s)) :
    Keeps s (setView v s) where
  bounded := fun b => ⟨b.records, b.distinct, b.answered, hb b, b.rx, b.tx, b.history⟩
  lamp := id
  queue := id
  view := hv
  chains := fun _ => id
  claims := fun _ x => x.of_same rfl rfl rfl rfl rfl id

/-- Entries that go leave the rest in order of hearing (R93). -/
theorem keeps_setView_filter (p : ClaimEntry → Bool) (s : State) :
    Keeps s (setView (s.cu.view.filter p) s) :=
  keeps_setView (fun b => (List.length_filter_le _ _).trans b.view) fun h =>
    ⟨h.order.sublist (List.filter_sublist.map _), fun e he => h.past e (List.mem_filter.1 he).1,
      h.stations.sublist (List.filter_sublist.map _)⟩

theorem keeps_setRx {q : List Octets} {s : State} (h : Bounded s → q.length ≤ 16) :
    Keeps s (setRx q s) where
  bounded := fun b => ⟨b.records, b.distinct, b.answered, b.view, h b, b.tx, b.history⟩
  lamp := id
  queue := id
  view := fun x => x.of_heard rfl (Nat.le_refl _)
  chains := fun _ => id
  claims := fun _ x => x.of_same rfl rfl rfl rfl rfl id

/-- The Sensing Unit replaced, its history of 11 samples kept (R129). -/
theorem keeps_setSu {u : Su} {s : State} (h : u.history.length = 11 ∨ u.history = s.su.history) :
    Keeps s (setSu u s) where
  bounded := fun b => ⟨b.records, b.distinct, b.answered, b.view, b.rx, b.tx,
    by rcases h with h | h; exacts [h, h ▸ b.history]⟩
  lamp := id
  queue := id
  view := fun x => x.of_heard rfl (Nat.le_refl _)
  chains := fun _ => id
  claims := fun _ x => x.of_same rfl rfl rfl rfl rfl id

/-- The history takes a sample and stays as long (R129). -/
theorem keeps_historyTake (v : Option Int) (r : Reading) (s : State) :
    Keeps s (setSu { s.su with heat := r, history := historyTake v s.su.history } s) where
  bounded := fun b => ⟨b.records, b.distinct, b.answered, b.view, b.rx, b.tx, by
    have := b.history
    simp only [setSu, historyTake, List.length_cons, List.length_take]; omega⟩
  lamp := id
  queue := id
  view := fun x => x.of_heard rfl (Nat.le_refl _)
  chains := fun _ => id
  claims := fun _ x => x.of_same rfl rfl rfl rfl rfl id

/-- The lamps change so that one of CMD_ACCEPT and CMD_REFUSED at most is lit (R162). -/
theorem keeps_lamps {no : No} {s : State} (h : OneLamp s → OneLamp { s with no := no }) :
    Keeps s { s with no := no } where
  bounded := fun b => ⟨b.records, b.distinct, b.answered, b.view, b.rx, b.tx, b.history⟩
  lamp := h
  queue := id
  view := fun x => x.of_heard rfl (Nat.le_refl _)
  chains := fun _ => id
  claims := fun _ x => x.of_same rfl rfl rfl rfl rfl id

theorem keeps_lightAccept (s : State) : Keeps s (lightAccept s) := keeps_lamps fun _ => .inr rfl
theorem keeps_lightRefused (s : State) : Keeps s (lightRefused s) := keeps_lamps fun _ => .inl rfl

theorem keeps_writeDemand (g : Governing) (d : Demand) (s : State) : Keeps s (writeDemand g d s) := by
  have h : Keeps s (setRecords (setDemand s.iu.records g.id (some d)) s) :=
    keeps_setRecords (fun c => c.of_ids (by simp)) (fun _ x => by simpa using x)
  exact h.trans (.of_looked rfl (Nat.le_refl _))

/-! ## What follows every event -/

/-- What a closing stage keeps; the queue and the claim-kind frames are each stage's own matter. -/
theorem Closes.forms {s t : State} (h : Closes s t) (hq : TxForm s.li.tx → TxForm t.li.tx) :
    KeepsForms s t where
  bounded := fun b => by
    have c := b.capped.of_ids (ids_of_bare h.bare)
    have hv : t.cu.view.length = s.cu.view.length := by simpa using congrArg List.length h.heard
    exact ⟨c.length, c.distinct, by rw [h.iu]; exact b.answered, hv ▸ b.view, by rw [h.rx]; exact b.rx,
      h.txLen b.tx, by rw [h.su]; exact b.history⟩
  lamp := fun x => by unfold OneLamp; rw [h.accept, h.refused]; exact x
  queue := hq
  view := fun x => x.of_heard h.heard (by rw [h.now])
  chains := fun _ x => by rw [look_of_bare h.bare]; exact x

/-- A closing stage that leaves the Claim Unit and the queue. -/
theorem Closes.keeps {s t : State} (h : Closes s t) (hc : t.cu = s.cu) (hq : t.li.tx = s.li.tx)
    (hm : t.sj.mode = .configFault → s.sj.mode = .configFault) : Keeps s t :=
  ⟨h.forms (fun x => hq ▸ x), fun _ x => x.of_same (by rw [hc]) (by rw [hc]) (by rw [hc]) (by rw [hq])
    h.sending hm⟩

/-- A frame of another kind placed leaves the claim-kind frames and the own claim. -/
theorem keeps_place {b : Body} (hb : bodyClass b ≠ 1) (s : State) : Keeps s (place b s) where
  toKeepsForms := (lineRest_place b s).closes.forms fun h => h.place
  claims := fun _ x => by
    refine x.of_same ?_ (place_counter b s) (place_spacing b s) (claimFrames_place_other hb s)
      (lineRest_place b s).sending (fun y => by simpa using y)
    rcases (place_cu b s).2.2 with h | ⟨-, n, h⟩
    · exact h
    · exact absurd (class_of_claim h) hb

theorem keeps_followList (s : State) : Keeps s (followList s) := by
  refine (closes_followList s).keeps ?_ ?_ ?_ <;> unfold followList
  · split <;> rfl
  · split <;> rfl
  · split
    · intro h; revert h; simp only [setMode]; split <;> simp
    · intro h; revert h; simp only [setMode]; split <;> simp
    all_goals exact id

theorem keeps_governingChanged (b s : State) : Keeps s (governingChanged b s) :=
  (closes_governingChanged b s).keeps (by simp) (by simp) (by simp)

theorem keeps_recomputeIfDue (b s : State) : Keeps s (recomputeIfDue b s) :=
  (closes_recomputeIfDue b s).keeps (by simp) (by simp) (by simp)

theorem keeps_enterMaintenance {s : State} (h : maintReady s = true) : Keeps s (enterMaintenance s) :=
  (closes_enterMaintenance s h).keeps rfl rfl (fun x => by cases x)

theorem keeps_followFlash (b s : State) : Keeps s (followFlash b s) :=
  (closes_followFlash b s).keeps rfl rfl id

/-! ## The own claim -/

/-- A frame that ends the own claim is placed, and the own claim is NONE (R101, R103). -/
theorem ClaimsOk.ended {s t : State} {b : Body} (h : ClaimsOk s) (ho : t.cu.own = .none)
    (hl : t.li = s.li) (hm : t.sj.mode = s.sj.mode) (hn : t.cu.counter = s.cu.counter)
    (hs : t.cu.spacingDue = s.cu.spacingDue) (hb : frameNumber b = ownNumber s.cu.own)
    (hp : ∀ r, Places b s.li.tx r → ClaimState .none (claimFrames r) (claimOnLine s)) :
    ClaimsOk (place b t) := by
  have own : (place b t).cu.own = .none := by
    rcases (place_cu b t).2.2 with h | ⟨h, -⟩
    · rw [h, ho]
    · exact h
  have line : claimOnLine (place b t) = claimOnLine s :=
    claimOnLine_congr ((lineRest_place b t).sending.trans (by rw [hl]))
  by_cases hf : s.sj.mode = .configFault
  · have he := h.fault hf
    have hq : claimFrames (place b t).li.tx = [] := by
      rw [place_configFault b t (hm.trans hf), hl, he]
    refine ⟨?_, fun _ => hq, NumbersFrom.ready ⟨by simp [hn], by simp [hs], ?_, ?_, ?_⟩ h.ready⟩
    · rw [own, hq]; exact .past (by simp) (by simp)
    · rw [hq]; simp
    · intro b hb; rw [line] at hb; exact .inr hb
    · exact .inl (by rw [own]; rfl)
  · have places : Places b s.li.tx (place b t).li.tx := by
      have := place_places b t (by rw [hm]; exact hf)
      rwa [hl] at this
    refine ⟨?_, fun x => absurd (by simpa [hm] using x) hf,
      NumbersFrom.ready ⟨by simp [hn], by simp [hs], fun x hx => ?_, ?_, ?_⟩ h.ready⟩
    · rw [own, line]; exact hp _ places
    · rcases places.claimFrames_mem hx with y | rfl
      · exact .inl y
      · exact .inr (.inr hb)
    · intro b hb; rw [line] at hb; exact .inr hb
    · exact .inl (by rw [own]; rfl)

theorem keeps_withdrawClaim {c : Claim} {due : Option Time} {s : State}
    (ho : s.cu.own = .settling c due) : Keeps s (withdrawClaim c s) where
  toKeepsForms := (lineRest_withdrawClaim c s).closes.forms fun h => TxForm.place h
  claims := fun q h => h.ended rfl rfl rfl rfl rfl (by rw [ho]; rfl)
    (fun r hp => (ho ▸ h.state).withdraw hp q.classes)

theorem keeps_releaseClaim {c : Claim} {due : Option Time} {s : State}
    (ho : s.cu.own = .granted c due) : Keeps s (releaseClaim c s) where
  toKeepsForms := (lineRest_releaseClaim c s).closes.forms fun h => TxForm.place h
  claims := fun q h => h.ended rfl rfl rfl rfl rfl (by rw [ho]; rfl)
    (fun r hp => (ho ▸ h.state).release hp q.classes)

theorem keeps_followSlot (s : State) : Keeps s (followSlot s) := by
  unfold followSlot
  split
  · rename_i ho
    split
    · exact .refl s
    · exact keeps_withdrawClaim ho
  · rename_i ho
    split
    · exact .refl s
    · exact keeps_releaseClaim ho
  · exact .refl s

/-- A CLAIM takes no waiting frame's place (R153). -/
theorem place_claim {n : Nat} {c : Claim} {s : State} (hm : s.sj.mode ≠ .configFault) :
    place (.claim n c) s = joinTail (.claim n c) s := by
  have : replaceIn (.claim n c) s.li.tx = none := replaceIn_none.2 fun _ _ => rfl
  unfold place
  rw [if_neg hm]
  simp only [this]

/-- What joining the tail does with a CLAIM of the own claim (R91, R99, R152). -/
theorem joinTail_claim {n : Nat} {c : Claim} {due : Option Time} {s : State}
    (ho : s.cu.own = .settling c due) (hq : TxForm s.li.tx) :
    ((joinTail (.claim n c) s).cu.own = .none ∧
        claimFrames (joinTail (.claim n c) s).li.tx = claimFrames s.li.tx) ∨
      ((joinTail (.claim n c) s).cu.own = .settling c due ∧
        claimFrames (joinTail (.claim n c) s).li.tx = claimFrames s.li.tx ++ [.claim n c]) := by
  by_cases hl : s.li.tx.length < 10
  · rw [joinTail_room _ s hl]
    exact .inr ⟨ho, claimFrames_insertTail rfl hq.classes⟩
  · refine .inl ?_
    unfold joinTail maxTx
    rw [if_pos (by omega)]
    refine ⟨?_, by rw [refuseFrame_li]⟩
    simp [refuseFrame, claimNotSent, claimNumber, ho, setOwn]

theorem keeps_testClaim (s : State) : Keeps s (testClaim s) := by
  refine ⟨(lineRest_testClaim s).closes.forms fun h => ?_, fun hq h => ?_⟩
  · unfold testClaim
    split
    · exact h
    · exact TxForm.place h
  unfold testClaim
  split
  · exact h
  rename_i k cls rank hc
  obtain ⟨ho, hs, hm⟩ : s.cu.own = .none ∧ s.cu.spacingDue = none ∧ s.sj.mode = .incident := by
    unfold claimTest at hc
    split at hc
    · split at hc
      · rename_i hown _ _ hcond
        exact ⟨hown, hcond.2.2.2.2, hcond.1⟩
      · cases hc
    · cases hc
  obtain ⟨fw, fl, -⟩ := h.ready.resolve_right (by simp [hs])
  have st := h.state
  rw [ho] at st
  have line : claimOnLine (placeClaim k cls rank s) = claimOnLine s :=
    claimOnLine_congr (lineRest_placeClaim k cls rank s).sending
  have spaced : (placeClaim k cls rank s).cu.spacingDue ≠ none := by simp [placeClaim]
  have mode : (placeClaim k cls rank s).sj.mode ≠ .configFault := by simp [placeClaim, hm]
  refine ⟨?_, fun x => absurd x mode, .inr spaced⟩
  rw [line]
  unfold placeClaim
  rw [place_claim (by simp [hm])]
  rcases joinTail_claim (n := s.sect) (c := ⟨k, s.cu.counter, ⟨cls, rank, s.sj.serial⟩⟩) (due := none)
    (s := { s with cu := { s.cu with
      counter := s.cu.counter + 1#8, own := .settling ⟨k, s.cu.counter, ⟨cls, rank, s.sj.serial⟩⟩ none,
      spacingDue := some (s.now + claimSpacingTime) } }) rfl hq with ⟨h1, h2⟩ | ⟨h1, h2⟩
  · rw [h1, h2]; exact st
  · rw [h1, h2]
    cases hL : claimOnLine s with
    | none =>
      rw [hL] at st
      exact .waiting rfl st.length_of_none fw (by simp) (by simp)
    | some y =>
      rw [hL] at st fl
      generalize hQ : claimFrames s.li.tx = q at st fw ⊢
      cases st with
      | past one after => exact .waiting rfl one fw fl after

theorem keeps_renewClaim {c : Claim} {t : Time} {s : State} (ho : s.cu.own = .granted c (some t)) :
    Keeps s (renewClaim c s) := by
  refine ⟨(lineRest_renewClaim c s).closes.forms fun h => TxForm.place h, fun hq h => ?_⟩
  have st := h.state
  rw [ho] at st
  obtain ⟨hq0, hl0⟩ : claimFrames s.li.tx = [] ∧ claimOnLine s = none := by
    generalize hQ : claimFrames s.li.tx = q at st
    generalize hL : claimOnLine s = line at st
    cases st
    exact ⟨rfl, rfl⟩
  have own : (renewClaim c s).cu.own = .granted c none ∧
      (claimFrames (renewClaim c s).li.tx = [] ∨
        s.sj.mode ≠ .configFault ∧ claimFrames (renewClaim c s).li.tx = [.claim s.sect c]) := by
    unfold renewClaim
    by_cases hm : s.sj.mode = .configFault
    · rw [place_configFault _ _ (by simpa using hm)]
      exact ⟨rfl, .inl hq0⟩
    rw [place_claim (by simpa using hm)]
    by_cases hl : s.li.tx.length < 10
    · rw [joinTail_room _ _ (by simpa using hl)]
      refine ⟨rfl, .inr ⟨hm, ?_⟩⟩
      have := claimFrames_insertTail (f := ⟨.claim s.sect c, 0⟩) rfl hq.classes
      rw [hq0] at this
      exact this
    · unfold joinTail maxTx
      rw [if_pos (by simpa using hl)]
      exact ⟨by simp [refuseFrame, claimNotSent, claimNumber, setOwn],
        .inl (by rw [refuseFrame_li]; exact hq0)⟩
  have line : claimOnLine (renewClaim c s) = none :=
    (claimOnLine_congr (lineRest_renewClaim c s).sending).trans hl0
  have sj : (renewClaim c s).sj = s.sj := (lineRest_renewClaim c s).sj
  obtain ⟨own, q⟩ := own
  refine ⟨?_, fun x => ?_, NumbersFrom.ready ⟨by simp [renewClaim, setOwn], by simp [renewClaim, setOwn],
    fun b hb => ?_, by rw [line]; simp, .inr (by rw [own, ho]; rfl)⟩ h.ready⟩
  · rw [own, line]
    rcases q with q | ⟨-, q⟩ <;> rw [q]
    · exact .idle _
    · exact .renewing rfl
  · rcases q with q | ⟨hm, -⟩
    · exact q
    · exact absurd (sj ▸ x) hm
  · rcases q with q | ⟨-, q⟩ <;> rw [q] at hb
    · cases hb
    · rw [List.mem_singleton.1 hb, ho]; exact .inr (.inr rfl)

/-! ## The closing -/

theorem keeps_planned (b s : State) : Keeps s (planned b s) :=
  (keeps_recomputeIfDue b s).trans (keeps_followSlot _)

theorem keeps_enterIfReady (s : State) : Keeps s (enterIfReady s) := by
  unfold enterIfReady
  split
  · rename_i h; exact (keeps_enterMaintenance h).trans (keeps_planned _ _)
  · exact .refl s

theorem keeps_follow (b s : State) : Keeps s (follow b s) :=
  (keeps_followList s).trans ((keeps_governingChanged b _).trans ((keeps_planned b _).trans
    ((keeps_enterIfReady _).trans ((keeps_testClaim _).trans (keeps_followFlash b _)))))

theorem keeps_ba (s : State) (ba : Ba) : Keeps s { s with ba := ba } := .of_looked rfl (Nat.le_refl _)

theorem keeps_placeStatus (s : State) : Keeps s (placeStatus s) :=
  (keeps_ba s _).trans (keeps_place (by simp [ownStatusBody, bodyClass]) _)

theorem keeps_placeEarly (s : State) : Keeps s (placeEarly s) := by
  unfold placeEarly
  dsimp only
  split
  · exact keeps_placeStatus s
  · exact (keeps_placeStatus s).trans (keeps_ba _ _)

theorem keeps_requestEarly (b s : State) : Keeps s (requestEarly b s) := by
  unfold requestEarly
  split
  · split
    · exact .refl s
    · split
      · exact keeps_placeEarly s
      · exact keeps_ba _ _
  · exact .refl s

/-- Everything that follows an event keeps what the relation names. -/
theorem keeps_closeEvent (b s : State) : Keeps s (closeEvent b s) :=
  (keeps_follow b s).trans (keeps_requestEarly b _)

end Sys2Proof.Machine
end

section
/-! PROOFS. What every command keeps of the capacities, the lamps, the queue, the claim view, the claim-kind
frames and the links, block by block (O54, O55). -/

namespace Sys2Proof.Machine

/-! ## The Incident Unit -/

theorem keeps_alarmEvent (s : State) : Keeps s (alarmEvent s) := by
  unfold alarmEvent
  split
  · exact .of_looked rfl (Nat.le_refl _)
  · exact (iuKeeps_actOnAlarm s).keeps
  · exact (iuKeeps_actOnAlarm s).keeps
  · exact (iuKeeps_actOnAlarm s).keeps
  · exact .refl s

theorem keeps_noteInvalid (v : Option Int) (r : Reading) (s : State) : Keeps s (noteInvalid v r s) := by
  unfold noteInvalid
  split
  · exact keeps_raise _ s
  · exact .refl s

theorem keeps_heatAlarmStep (v : Option Int) (s : State) : Keeps s (heatAlarmStep v s) := by
  unfold heatAlarmStep
  split
  · split
    · have h : Keeps s (setSu { s.su with alarm := .alarmed 0 } s) := keeps_setSu (.inr rfl)
      exact h.trans (keeps_alarmEvent _)
    · exact .refl s
  · exact keeps_setSu (.inr rfl)

theorem keeps_takeSample (x : Sensor) (v : Option Int) (s : State) : Keeps s (takeSample x v s) := by
  cases x
  · exact (keeps_historyTake v _ s).trans ((keeps_noteInvalid _ _ _).trans (keeps_heatAlarmStep _ _))
  · refine Keeps.trans ?_ (keeps_noteInvalid _ _ _)
    exact keeps_setSu (.inr rfl)
  · refine Keeps.trans ?_ (keeps_noteInvalid _ _ _)
    exact keeps_setSu (.inr rfl)

theorem keeps_directionCommand (d : Direction) (o : Bool) (s : State) :
    Keeps s (directionCommand d o s) := by
  unfold directionCommand
  split
  · exact keeps_lightRefused s
  · split
    · exact ((iuKeeps_setContent _ _ s).trans (iuKeeps_triggerReannounce _ _)).keeps.trans
        (keeps_lightAccept _)
    · exact keeps_lightRefused s

theorem keeps_standDown (s : State) : Keeps s (standDown s) := by
  unfold standDown
  split
  · exact keeps_lightRefused s
  · rename_i g hg
    obtain ⟨r, hr, hst⟩ := governing_rec hg
    have ha : look s.iu.records g.id = some .active := by rw [look_of_find hr, hst]; rfl
    have h := ((iuKeeps_endChain ha).trans (iuKeeps_placeEnd g.id _)).keeps
    refine h.trans (Keeps.trans ?_ (keeps_lightAccept _))
    exact .of_looked rfl (Nat.le_refl _)

theorem keeps_commandEdge {act : State → State} (h : ∀ s, Keeps s (act s)) (s : State) :
    Keeps s (commandEdge act s) := by
  have hn : Keeps s (noteCommand s) := .of_looked rfl (Nat.le_refl _)
  unfold commandEdge
  split
  · exact hn.trans (h _)
  · exact hn.trans (h _)
  · exact hn.trans (h _)
  · exact .refl s
  · exact .refl s

/-- A mode other than CONFIG_FAULT and other slots (R84, R86). -/
theorem keeps_setMode {m : Mode} {fs : Fs} {s : State} (hm : m ≠ .configFault) :
    Keeps s (setMode m { s with fs := fs }) where
  bounded := fun b => ⟨b.records, b.distinct, b.answered, b.view, b.rx, b.tx, b.history⟩
  lamp := id
  queue := id
  view := fun x => x.of_heard rfl (Nat.le_refl _)
  chains := fun _ => id
  claims := fun _ x => x.of_same rfl rfl rfl rfl rfl (fun y => absurd y hm)

theorem listMode_ne_fault (s : State) : (if anyActive s then Mode.incident else .quiet) ≠ .configFault := by
  split <;> simp

theorem keeps_maintReported (v : Bool) (s : State) : Keeps s (maintReported v s) := by
  unfold maintReported
  split
  · exact .of_looked rfl (Nat.le_refl _)
  · exact .of_looked rfl (Nat.le_refl _)
  · exact keeps_setMode (listMode_ne_fault _)
  · split
    · exact .of_looked rfl (Nat.le_refl _)
    · exact .refl s
  · split
    · exact .of_looked rfl (Nat.le_refl _)
    · exact .refl s
  all_goals exact .refl s

theorem keeps_testConflictLamp (s : State) : Keeps s (testConflictLamp s) := by
  unfold testConflictLamp
  split
  · exact .of_looked rfl (Nat.le_refl _)
  · exact .refl s

theorem keeps_inputActs (i : Input) (s : State) : Keeps s (inputActs i s) := by
  unfold inputActs
  split
  · exact keeps_alarmEvent s
  · exact keeps_commandEdge (keeps_directionCommand _ _) s
  · exact keeps_commandEdge (keeps_directionCommand _ _) s
  · exact keeps_commandEdge keeps_standDown s
  · exact keeps_maintReported _ s
  · exact keeps_testConflictLamp s
  · exact keeps_testConflictLamp s
  · exact .refl s
  · exact .refl s

theorem keeps_endDefer (id : Id) (s : State) : Keeps s (endDefer id s) := by
  have hd : Keeps s (dropReannounce id s) := .of_looked rfl (Nat.le_refl _)
  unfold endDefer
  split
  · exact hd
  · split
    · unfold waitRate
      split
      · exact .refl s
      · exact .of_looked rfl (Nat.le_refl _)
    · exact hd.trans (iuKeeps_placeIncident _ _).keeps

theorem keeps_repeatEnd (id : Id) (s : State) : Keeps s (repeatEnd id s) := by
  refine Keeps.trans ?_ (iuKeeps_placeEnd _ _).keeps
  exact .of_looked rfl (Nat.le_refl _)

/-- The ending timer removes its record, which is ENDED and no link's end (R23). -/
theorem keeps_endingTimer {id : Id} {s : State} (h : look s.iu.records id = some .ended) :
    Keeps s (setRecords (s.iu.records.filter fun r => r.id != id) s) :=
  keeps_setRecords (fun c => c.of_sublist List.filter_sublist)
    (fun _ x => by rw [look_filter_ne]; exact x.update_idle (.inr h) (.inl rfl))

theorem endingDue_look {rs : List Rec} {id : Id} {t : Time} (h : endingDue rs id = some t) :
    look rs id = some .ended := by
  unfold endingDue at h
  split at h
  · rename_i hst
    obtain ⟨r, hr, e⟩ := Option.map_eq_some_iff.1 hst
    rw [look_of_find hr, e]; rfl
  all_goals cases h

theorem keeps_removeYield (id : Id) (s : State) : Keeps s (removeYield id s) := by
  have hb : (removeYield id s).iu.records.map bare = s.iu.records.map bare := by
    simp only [removeYield, setRecords_iu_records, List.map_map]
    refine List.map_congr_left fun r _ => ?_
    simp only [Function.comp]
    split
    · rename_i hst
      split <;> simp [bare, hst]
    all_goals rfl
  exact keeps_setRecords (fun c => c.of_ids (ids_of_bare hb)) (fun _ x => (look_of_bare hb) ▸ x)

theorem keeps_paceUpdate (s : State) : Keeps s (paceUpdate s) := by
  unfold paceUpdate
  split
  · exact .of_looked rfl (Nat.le_refl _)
  · exact (keeps_writeDemand _ _ s).trans (.of_looked rfl (Nat.le_refl _))

/-! ## Frames received -/

theorem keeps_considerDemand (p : Nat) (st : StatusPart) (s : State) :
    Keeps s (considerDemand p st s) := by
  unfold considerDemand
  split
  · split
    · split
      · exact (keeps_writeDemand _ _ s).trans (.of_looked rfl (Nat.le_refl _))
      · split
        · exact keeps_writeDemand _ _ s
        · exact .refl s
    · exact .refl s
  · exact .refl s

theorem keeps_enterConfigFault (s : State) : Keeps s (enterConfigFault s) where
  bounded := fun b => ⟨by simp [enterConfigFault, handTargets],
    by simp [enterConfigFault, handTargets], by simp [enterConfigFault, handTargets],
    by simp [enterConfigFault, handTargets, claimsInFault], b.rx,
    by simp [enterConfigFault, handTargets], b.history⟩
  lamp := fun _ => .inl rfl
  queue := fun _ => ⟨.nil, by simp [enterConfigFault, handTargets, classesOf], .nil⟩
  view := fun _ => ⟨.nil, by simp [enterConfigFault, handTargets, claimsInFault], .nil⟩
  chains := fun _ _ id y h => by cases h
  claims := fun _ h => by
    refine ⟨?_, fun _ => rfl, h.next ⟨rfl, rfl, by simp [enterConfigFault, handTargets],
      fun _ => .inr, ?_⟩⟩
    · rw [enterConfigFault_own]; exact h.state.fault
    · rw [enterConfigFault_own]; exact faultOwn_number _

theorem keeps_duplicateTest (x : BitVec 32) (s : State) : Keeps s (duplicateTest x s) := by
  unfold duplicateTest
  split
  · exact .refl s
  · split
    · exact keeps_enterConfigFault s
    · exact keeps_raise _ s

theorem keeps_receiveStatus (p : Nat) (b : Octets) (s : State) : Keeps s (receiveStatus p b s) := by
  unfold receiveStatus
  split
  · split
    · exact keeps_duplicateTest _ s
    · exact keeps_raise _ s
  · split
    · exact keeps_raise _ s
    · rename_i st _
      have h : Keeps s (storeStatus p st s) := .of_looked rfl (Nat.le_refl _)
      exact h.trans ((iuKeeps_takeStatus _ _).keeps.trans (keeps_considerDemand _ _ _))

theorem keeps_receiveIncident (b : Octets) (s : State) : Keeps s (receiveIncident b s) := by
  unfold receiveIncident
  split
  · exact keeps_raise _ s
  · exact ((iuKeeps_catchUp _ s).trans (iuKeeps_receiveActive _ _ _)).keeps
  · rename_i h
    exact ((iuKeeps_catchUp _ s).trans ((iuKeeps_catchUp _ _).trans
      (iuKeeps_receiveAbsorbed (readIncident_absorbed h) _ _))).keeps
  · exact ((iuKeeps_catchUp _ s).trans (iuKeeps_receiveEnd _ _)).keeps

theorem keeps_receiveEnding (b : Octets) (s : State) : Keeps s (receiveEnding b s) := by
  unfold receiveEnding
  split
  · exact keeps_raise _ s
  · exact ((iuKeeps_catchUp _ s).trans (iuKeeps_receiveEnd _ _)).keeps

/-- An entry heard now joins behind others, none of them of its station (R93, R94). -/
theorem keeps_setView_heard {v : List ClaimEntry} {e : ClaimEntry} {s : State}
    (hv : v.Sublist s.cu.view) (hl : Bounded s → v.length ≤ 15) (hn : ∀ x ∈ v, x.station ≠ e.station)
    (he : e.heardAt = s.now) : Keeps s (setView (v ++ [e]) s) := by
  refine keeps_setView (fun b => by have := hl b; simp; omega) fun h => ⟨?_, ?_, ?_⟩
  · simp only [setView, List.map_append, List.map_cons, List.map_nil, List.pairwise_append]
    refine ⟨h.order.sublist (hv.map _), by simp, ?_⟩
    intro a ha b hb
    obtain ⟨x, hx, rfl⟩ := List.mem_map.1 ha
    rw [List.mem_singleton.1 hb, he]
    exact h.past x (hv.subset hx)
  · intro x hx
    rcases List.mem_append.1 hx with hx | hx
    · exact h.past x (hv.subset hx)
    · rw [List.mem_singleton.1 hx, he]; exact Nat.le_refl _
  · simp only [setView, List.map_append, List.map_cons, List.map_nil, List.nodup_append]
    refine ⟨h.stations.sublist (hv.map _), by simp, ?_⟩
    intro a ha b hb
    obtain ⟨x, hx, rfl⟩ := List.mem_map.1 ha
    rw [List.mem_singleton.1 hb]
    exact hn x hx

theorem keeps_applyClaim (p : Nat) (c : Claim) (s : State) : Keeps s (applyClaim p c s) := by
  unfold applyClaim
  dsimp only
  split
  · rename_i e he
    have hs : e.station = p := by simpa using List.find?_some he
    have hlen : Bounded s → (s.cu.view.filter fun e => e.station != p).length ≤ 15 := fun b => by
      have : (s.cu.view.filter fun e => e.station != p).length < s.cu.view.length := by
        rw [List.length_filter_lt_length_iff_exists]
        exact ⟨e, List.mem_of_find?_eq_some he, by simp [hs]⟩
      have := b.view
      omega
    have hne : ∀ x ∈ s.cu.view.filter (fun e => e.station != p), x.station ≠ p :=
      fun x hx => by simpa using (List.mem_filter.1 hx).2
    split
    · exact keeps_setView_heard List.filter_sublist hlen (by rw [hs]; exact hne) rfl
    · exact keeps_setView_heard List.filter_sublist hlen hne rfl
  · rename_i hf
    have hne : ∀ x ∈ s.cu.view, x.station ≠ p := fun x hx => by
      simpa using List.find?_eq_none.1 hf x hx
    unfold addEntry maxClaims
    split
    · refine keeps_setView_heard (List.drop_sublist 1 _) (fun b => ?_)
        (fun x hx => hne x (List.mem_of_mem_drop hx)) rfl
      have := b.view
      simp only [List.length_drop]; omega
    · exact keeps_setView_heard (List.Sublist.refl _) (fun _ => by omega) hne rfl

theorem keeps_receiveClaim (p : Nat) (b : Octets) (s : State) : Keeps s (receiveClaim p b s) := by
  unfold receiveClaim
  split
  · split
    · exact keeps_raise _ s
    · exact keeps_applyClaim _ _ s
  · exact .refl s

theorem keeps_receiveClaimEnd (p : Nat) (b : Octets) (s : State) : Keeps s (receiveClaimEnd p b s) := by
  unfold receiveClaimEnd
  split
  · split
    · exact keeps_raise _ s
    · exact keeps_setView_filter _ s
  · exact .refl s

theorem keeps_handOff (f : Octets) (s : State) : Keeps s (handOff f s) := by
  unfold handOff
  split
  · exact keeps_receiveStatus _ _ s
  · exact keeps_receiveIncident _ s
  · exact keeps_receiveEnding _ s
  · exact keeps_receiveClaim _ _ s
  · exact keeps_receiveClaimEnd _ _ s
  · exact keeps_receiveClaimEnd _ _ s
  · exact .refl s

theorem keeps_dispatch (f : Octets) (s : State) : Keeps s (dispatch f s) := by
  have h : Keeps s (if frameSource f = s.station then s else refreshPeer (frameSource f) s) := by
    split
    · exact .refl s
    · exact .of_looked rfl (Nat.le_refl _)
  unfold dispatch
  split
  · exact .refl s
  · split
    · exact keeps_raise _ s
    · split
      · exact keeps_raise _ s
      · dsimp only
        split
        · exact h.trans (keeps_handOff _ _)
        · exact h.trans (keeps_raise _ _)

theorem keeps_taken {k : FrameKind} {s x : State} (h : taken k s = some x) : Keeps s x := by
  unfold taken at h
  split at h
  · cases h
  · rename_i f fs hrx
    split at h
    · cases h
      refine Keeps.trans (keeps_setRx fun b => ?_) (keeps_dispatch _ _)
      have := b.rx
      rw [hrx] at this
      simp only [List.length_cons] at this
      omega
    · cases h

/-! ## The Claim Unit -/

theorem keeps_settle {c : Claim} {t : Time} {s : State} (ho : s.cu.own = .settling c (some t)) :
    Keeps s (settle c s) := by
  unfold settle
  split
  · have h : Keeps s (setOwn (.granted c (some (s.now + renewalTime))) (allEarly s)) := by
      have hh : (setOwn (.granted c (some (s.now + renewalTime))) (allEarly s)).cu.view.map heardOf =
          s.cu.view.map heardOf := (lineRest_allEarly s).heard
      refine ⟨⟨fun b => ?_, id, id, fun x => x.of_heard hh (Nat.le_refl _), fun _ => id⟩,
        fun _ x => ⟨?_, x.fault, ?_⟩⟩
      · have hv : (setOwn (.granted c (some (s.now + renewalTime))) (allEarly s)).cu.view.length =
            s.cu.view.length := by
          have := congrArg List.length hh
          simpa only [List.length_map] using this
        exact ⟨b.records, b.distinct, b.answered, hv ▸ b.view, b.rx, b.tx, b.history⟩
      · have st := x.state
        rw [ho] at st
        change ClaimState (.granted c (some _)) (claimFrames s.li.tx) (claimOnLine s)
        generalize claimFrames s.li.tx = q at st ⊢
        generalize claimOnLine s = line at st ⊢
        cases st
        exact .idle _
      · exact x.next ⟨rfl, rfl, fun _ => .inl, fun _ => .inr, .inr (by rw [ho]; rfl)⟩
    exact h.trans (.of_looked rfl (Nat.le_refl _))
  · exact keeps_withdrawClaim ho

/-- The spacing timer stops; the number of the next CLAIM is then to be free (R98). -/
theorem keepsForms_spacing (s : State) :
    KeepsForms s { s with cu := { s.cu with spacingDue := none } } where
  bounded := fun b => ⟨b.records, b.distinct, b.answered, b.view, b.rx, b.tx, b.history⟩
  lamp := id
  queue := id
  view := fun x => x.of_heard rfl (Nat.le_refl _)
  chains := fun _ => id

/-! ## The Line Interface -/

theorem keeps_discardAssembly (s : State) : Keeps s (discardAssembly s) := .of_looked rfl (Nat.le_refl _)

/-- What looks at the frame being sent: nothing but the claim-kind frames. -/
theorem keepsForms_li {li : Li} {s : State} (hq : Bounded s → li.tx.length ≤ 10)
    (hf : TxForm s.li.tx → TxForm li.tx) (hx : li.rx = s.li.rx) : KeepsForms s { s with li := li } where
  bounded := fun b => ⟨b.records, b.distinct, b.answered, b.view, hx ▸ b.rx, hq b, b.history⟩
  lamp := id
  queue := hf
  view := fun x => x.of_heard rfl (Nat.le_refl _)
  chains := fun _ => id

theorem claimOnLine_sending {s : State} {x : Sending} (h : s.li.sending = some x) :
    claimOnLine s = if bodyClass x.frame.body = 1 then some x.frame.body else none := by
  unfold claimOnLine
  rw [h]
  by_cases h1 : bodyClass x.frame.body = 1 <;> simp [h1]

theorem claimOnLine_none {s : State} (h : s.li.sending = none) : claimOnLine s = none := by
  unfold claimOnLine; rw [h]; rfl

/-- The head frame leaves the queue and is being sent (R154). -/
theorem keeps_startSend {s : State} (h : s.li.sending = none) : Keeps s (startSend s) := by
  have key (t : State) (hl : t.li.sending = none) (f : TxFrame) (fs : List TxFrame)
      (ht : t.li.tx = f :: fs) (n : Time) :
      Keeps t { t with li := { t.li with tx := fs, sending := some ⟨f, n⟩, synced := false } } := by
    refine ⟨keepsForms_li (fun b => ?_) (fun q => q.of_sublist (ht ▸ List.sublist_cons_self f fs)) rfl,
      fun _ x => ?_⟩
    · have := b.tx
      rw [ht] at this
      simp only [List.length_cons] at this
      exact Nat.le_of_succ_le this
    have line := claimOnLine_sending
      (s := { t with li := { t.li with tx := fs, sending := some ⟨f, n⟩, synced := false } }) rfl
    dsimp only at line
    have st := x.state
    have fault := x.fault
    rw [claimOnLine_none hl, ht, claimFrames_cons] at st
    rw [ht, claimFrames_cons] at fault
    refine ⟨?_, fun m => ?_, x.next ⟨rfl, rfl, fun b hb => .inl ?_, fun b hb => .inl ?_,
      .inr rfl⟩⟩
    · rw [line]
      by_cases hc : bodyClass f.body = 1
      · rw [if_pos hc] at st ⊢; exact st.start
      · rw [if_neg hc] at st ⊢; exact st
    · have e := fault m
      by_cases hc : bodyClass f.body = 1
      · rw [if_pos hc] at e; cases e
      · rw [if_neg hc] at e; exact e
    · rw [ht, claimFrames_cons]
      split
      · exact List.mem_cons_of_mem _ hb
      · exact hb
    · rw [line] at hb
      by_cases hc : bodyClass f.body = 1
      · rw [if_pos hc] at hb
        cases hb
        rw [ht, claimFrames_cons, if_pos hc]; exact List.mem_cons_self
      · rw [if_neg hc] at hb; cases hb
  unfold startSend
  split
  · exact .refl s
  · rename_i f fs ht
    dsimp only
    split
    · exact key s h f fs ht s.now
    · exact (keeps_discardAssembly s).trans (key (discardAssembly s) h f fs ht s.now)

theorem keeps_sendStart {s x : State} (h : timed (sendDue s) startSend s = some x) : Keeps s x := by
  obtain ⟨t, ht, rfl⟩ := Option.map_eq_some_iff.1 h
  have hn : s.li.sending = none := by
    unfold sendDue receiving at ht
    split at ht
    · cases ht
    · split at ht
      · rename_i hc
        simp only [Bool.and_eq_true, Option.isNone_iff_eq_none] at hc
        exact hc.1.2
      · cases ht
  exact (keeps_reachTime t s).trans (keeps_startSend (s := reachTime t s) hn)

theorem keeps_arriveFrame (f : Octets) (s : State) : Keeps s (arriveFrame f s) := by
  have h : Keeps s { s with li := { s.li with assembly := [] } } := .of_looked rfl (Nat.le_refl _)
  unfold arriveFrame maxRx
  dsimp only
  split
  · rename_i hl
    exact h.trans (keeps_setRx fun _ => by simp; omega)
  · exact h.trans (keeps_raise _ _)

theorem keeps_takeCharacter (o : Octet) (b : Bool) (s : State) : Keeps s (takeCharacter o b s) := by
  have h : Keeps s (characterRead s) := .of_looked rfl (Nat.le_add_right _ _)
  unfold takeCharacter
  dsimp only
  split
  · exact h
  · exact h.trans (.of_looked rfl (Nat.le_refl _))
  · exact h.trans (keeps_arriveFrame _ _)
  · exact h.trans (keeps_discardAssembly _)

theorem keeps_characterEffect {ready : Bool} {o : Octet} {stop : Bool} {s x : State}
    (h : characterEffect ready o stop s = some x) : Keeps s x := by
  unfold characterEffect at h
  split at h
  · exact keeps_sendStart h
  · unfold whenReady at h
    split at h
    · cases h; exact keeps_takeCharacter _ _ s
    · cases h

theorem keepsForms_endAttempt (s : State) : KeepsForms s (endAttempt s) :=
  keepsForms_li (fun b => b.tx) id rfl

/-- An attempt is over: what goes back to the queue was on the line, and the own claim stands or is over. -/
theorem ClaimsOk.attempted {s t : State} (h : ClaimsOk s) (hl : t.li.sending = none)
    (hs : ClaimState t.cu.own (claimFrames t.li.tx) none)
    (hn : t.cu.counter = s.cu.counter) (hp : t.cu.spacingDue = s.cu.spacingDue)
    (hq : ∀ b ∈ claimFrames t.li.tx, b ∈ claimFrames s.li.tx ∨ claimOnLine s = some b)
    (hf : t.sj.mode = .configFault → claimFrames t.li.tx = [])
    (ho : ownNumber t.cu.own = none ∨ ownNumber t.cu.own = ownNumber s.cu.own) : ClaimsOk t where
  state := by rw [claimOnLine_none hl]; exact hs
  fault := hf
  ready := NumbersFrom.ready ⟨hn, hp, fun b hb => (hq b hb).imp_right .inl,
    fun b hb => (by rw [claimOnLine_none hl] at hb; cases hb), ho⟩ h.ready

/-- An attempt is over and the queue and the own claim stand. -/
theorem ClaimsOk.endAttempt {s : State} (h : ClaimsOk s) : ClaimsOk (endAttempt s) :=
  h.attempted rfl h.state.off rfl rfl (fun _ => .inl) h.fault (.inr rfl)

theorem claimSent_rest (b : Body) (s : State) : (claimSent b s).li = s.li ∧
    (claimSent b s).sj = s.sj ∧ (claimSent b s).cu.counter = s.cu.counter ∧
    (claimSent b s).cu.spacingDue = s.cu.spacingDue := by
  unfold claimSent
  split
  · split <;> exact ⟨rfl, rfl, rfl, rfl⟩
  · exact ⟨rfl, rfl, rfl, rfl⟩

theorem ownSent_number (t : Time) (b : Body) (own : OwnClaim) :
    ownNumber (ownSent t b own) = ownNumber own := by
  unfold ownSent
  split
  · split <;> rfl
  · rfl

/-- A frame has been sent whole (R155). -/
theorem keeps_sent {x : Sending} {s : State} (h : s.li.sending = some x) :
    Keeps s (claimSent x.frame.body (endAttempt s)) := by
  have own := claimSent_own x.frame.body (endAttempt s)
  obtain ⟨li, sj, counter, spacing⟩ := claimSent_rest x.frame.body (endAttempt s)
  refine ⟨(keepsForms_endAttempt s).trans ?_, fun q c => ?_⟩
  · unfold claimSent
    split
    · split
      · exact (lineRest_setOwn _ _).closes.forms id
      · exact .refl _
    · exact .refl _
  · refine c.attempted (by rw [li]; rfl) ?_ counter spacing (fun b hb => .inl (by rwa [li] at hb))
      (fun m => by rw [li]; exact c.fault (by rwa [sj] at m)) (.inr (by rw [own, ownSent_number]; rfl))
    rw [own, li]
    have st := c.state
    rw [claimOnLine_sending h] at st
    by_cases hc : bodyClass x.frame.body = 1
    · rw [if_pos hc] at st; exact st.sent _
    · rw [if_neg hc] at st
      have e : ownSent ((endAttempt s).now + settleTime) x.frame.body s.cu.own = s.cu.own := by
        unfold ownSent
        split
        · rename_i ho; rw [if_neg fun e => hc (class_of_claim e), ho]
        · rfl
      change ClaimState (ownSent _ _ s.cu.own) _ _
      rw [e]; exact st

/-- A collided frame that no frame of the queue takes the place of is the only one of its kind there. -/
theorem superseded_none {b : Body} {n : Nat} {s : State} (h : supersededIn b n s.li.tx = none)
    {x : Body} (hx : x ∈ claimFrames s.li.tx) {k : BitVec 8} (hb : claimNumber b = some k)
    (hw : s.li.tx.any (isWithdrawNo k) = false) (hc : claimNumber x = none) :
    frameNumber x ≠ some k := by
  obtain ⟨-, f, hf, rfl⟩ := mem_claimFrames.1 hx
  have h1 := supersededIn_none.1 h f hf
  have h2 := List.any_eq_false.1 hw f hf
  revert h1 h2 hc
  unfold isWithdrawNo
  cases f.body with
  | release a c n => simp only [takesPlaceOf, hb]; rintro - h - e; cases e; simp at h
  | withdraw a c n => simp [frameNumber]
  | claim a c => simp [claimNumber]
  | _ => simp [frameNumber]

theorem claimFrames_supersededIn {b : Body} {n : Nat} {q r : List TxFrame}
    (h : supersededIn b n q = some r) : claimFrames r = claimFrames q := by
  obtain ⟨l, y, t, m, rfl, -, rfl⟩ := supersededIn_split h
  simp [claimFrames]

theorem isWithdrawNo_body {n : BitVec 8} {f : TxFrame} (h : isWithdrawNo n f = true) :
    claimNumber f.body = none ∧ frameNumber f.body = some n ∧ bodyClass f.body = 1 := by
  unfold isWithdrawNo at h
  cases hb : f.body <;> simp_all [claimNumber, frameNumber, bodyClass]

theorem refuseFrame_own (b : Body) (s : State) : (refuseFrame b s).cu.own =
    match s.cu.own with
    | .settling c due => if claimNumber b = some c.number then .none else .settling c due
    | own => own := by
  unfold refuseFrame claimNotSent
  cases hb : claimNumber b with
  | none => cases ho : s.cu.own <;> simp [ho]
  | some n =>
    cases ho : s.cu.own with
    | settling c due =>
      by_cases h : c.number = n
      · simp [ho, h]
      · simp [ho, h, Ne.symm h]
    | _ => simp [ho]

theorem ClaimsOk.returnFrame {f : TxFrame} {x : Sending} {s : State} (c : ClaimsOk s)
    (q : TxForm s.li.tx) (h : s.li.sending = some x) (hf : f.body = x.frame.body)
    (hm : s.sj.mode ≠ .configFault) (hn : supersededIn f.body f.attempts s.li.tx = none)
    (hw : ∀ k, claimNumber f.body = some k → s.li.tx.any (isWithdrawNo k) = false) :
    ClaimsOk (returnFrame f (Machine.endAttempt s)) := by
  have st := c.state
  rw [claimOnLine_sending h, ← hf] at st
  unfold Machine.returnFrame maxTx
  split
  · have rest := lineRest_refuseFrame f.body (Machine.endAttempt s)
    obtain ⟨counter, spacing, own⟩ := refuseFrame_cu f.body (Machine.endAttempt s)
    have li := refuseFrame_li f.body (Machine.endAttempt s)
    refine c.attempted (by rw [li]; rfl) ?_ counter spacing (fun b hb => .inl (by rwa [li] at hb))
      (fun m => absurd (by rwa [rest.sj] at m) hm) ?_
    · rw [li, refuseFrame_own]
      change ClaimState (match s.cu.own with
        | .settling c due => if claimNumber f.body = some c.number then .none else .settling c due
        | own => own) (claimFrames s.li.tx) none
      cases ho : s.cu.own with
      | settling d due =>
        dsimp only
        rw [ho] at st
        by_cases e : claimNumber f.body = some d.number
        · rw [if_pos (class_of_claim e)] at st
          rw [if_pos e]; exact st.unsent e
        · rw [if_neg e]; exact st.off
      | none => rw [ho] at st; exact st.off
      | granted d due => rw [ho] at st; exact st.off
    · rcases own with e | ⟨e, -⟩
      · rw [e]; exact .inr rfl
      · rw [e]; exact .inl rfl
  · by_cases hc : bodyClass f.body = 1
    · have e : claimFrames (insertHead f s.li.tx) = f.body :: claimFrames s.li.tx :=
        claimFrames_insertHead hc q.classes
      rw [if_pos hc] at st
      refine c.attempted rfl ?_ rfl rfl ?_ (fun m => absurd m hm) (.inr rfl)
      · change ClaimState s.cu.own (claimFrames (insertHead f s.li.tx)) none
        rw [e]
        exact st.returned (fun y hy => frameNumber_isSome (mem_claimFrames.1 hy).1)
          (fun y hy k hk hy0 => superseded_none hn hy hk (hw k hk) hy0)
      · intro b hb
        change b ∈ claimFrames (insertHead f s.li.tx) at hb
        rw [e] at hb
        rcases List.mem_cons.1 hb with rfl | hb
        · rw [claimOnLine_sending h, ← hf, if_pos hc]; exact .inr rfl
        · exact .inl hb
    · have e : claimFrames (insertHead f s.li.tx) = claimFrames s.li.tx :=
        claimFrames_insertHead_other hc _
      exact c.endAttempt.of_same rfl rfl rfl e rfl id

/-- A collided frame returns, is taken up by another, or is dropped (R156). -/
theorem keeps_collided {f : TxFrame} {x : Sending} {s : State} (h : s.li.sending = some x)
    (hf : f.body = x.frame.body) : Keeps s (collided f (endAttempt s)) := by
  have drop : Keeps s (endAttempt s) := ⟨keepsForms_endAttempt s, fun _ c => c.endAttempt⟩
  unfold collided
  split
  · exact drop.trans (keeps_raise _ _)
  split
  · exact drop
  rename_i hm
  have ret (hn : supersededIn f.body f.attempts (endAttempt s).li.tx = none)
      (hw : ∀ k, claimNumber f.body = some k → (endAttempt s).li.tx.any (isWithdrawNo k) = false) :
      Keeps s (returnFrame f (endAttempt s)) := by
    refine ⟨(keepsForms_endAttempt s).trans ?_, fun q c => c.returnFrame q h hf hm hn hw⟩
    unfold returnFrame maxTx
    split
    · exact (lineRest_refuseFrame _ _).closes.forms fun q => by rw [refuseFrame_li]; exact q
    · refine keepsForms_li (fun _ => ?_) (fun q => q.insertHead (supersededIn_none.1 hn)) rfl
      have := (insertHead_perm f (endAttempt s).li.tx).length_eq
      rw [this, List.length_cons]; omega
  split
  · rename_i q hq
    obtain ⟨l, y, t, m, e, -, rfl⟩ := supersededIn_split hq
    refine drop.trans ⟨keepsForms_li (fun b => ?_) (fun g => g.supersededIn hq) rfl, fun _ c =>
      c.of_same rfl rfl rfl (claimFrames_supersededIn hq) rfl id⟩
    have := b.tx
    rw [e] at this
    simpa using this
  · rename_i hn
    split
    · rename_i k hk
      split
      · rename_i hw
        obtain ⟨l, w, t, e, hwn, -, hr⟩ := removeFirst_split hw
        refine ⟨(keepsForms_endAttempt s).trans (keepsForms_li
          (fun b => (removeFirst_sublist _ _).length_le.trans b.tx) (fun g => g.removeFirst) rfl),
          fun _ c => ?_⟩
        obtain ⟨hw0, -, hw1⟩ := isWithdrawNo_body hwn
        have st := c.state
        rw [claimOnLine_sending h, ← hf, if_pos (class_of_claim hk)] at st
        have e' : claimFrames s.li.tx = claimFrames l ++ w.body :: claimFrames t := by
          have : s.li.tx = l ++ w :: t := e
          rw [this, claimFrames_split hw1]
        have er : claimFrames (removeFirst (isWithdrawNo k) (endAttempt s).li.tx) =
            claimFrames l ++ claimFrames t := by rw [hr, claimFrames_append]
        rw [e'] at st
        refine c.attempted rfl ?_ rfl rfl (fun b hb => .inl ?_) (fun m => absurd m hm) (.inr rfl)
        · simp only [setTx]
          rw [er]; exact st.withdrawn hw0
        · simp only [setTx] at hb
          rw [er] at hb
          rw [e']
          rcases List.mem_append.1 hb with hb | hb
          · exact List.mem_append_left _ hb
          · exact List.mem_append_right _ (List.mem_cons_of_mem _ hb)
      · rename_i hw
        exact ret hn fun k' hk' => by rw [hk] at hk'; cases hk'; simpa using hw
    · rename_i hk
      exact ret hn fun k' hk' => by rw [hk] at hk'; cases hk'

/-! ## Every event -/

theorem keeps_timed {due : Option Time} {body : State → State} {s x : State}
    (h : timed due body s = some x) (hb : ∀ s, Keeps s (body s)) : Keeps s x := by
  obtain ⟨t, -, rfl⟩ := Option.map_eq_some_iff.1 h
  exact (keeps_reachTime t s).trans (hb _)

theorem keeps_whenReady {ready : Bool} {body : State → State} {s x : State}
    (h : whenReady ready body s = some x) (hb : ready = true → Keeps s (body s)) : Keeps s x := by
  unfold whenReady at h
  split at h
  · rename_i hr; cases h; exact hb hr
  · cases h

theorem keeps_lampExpired (l : Lamp) (s : State) : Keeps s (lampExpired l s) := by
  cases l
  · exact keeps_lamps fun _ => .inl rfl
  · exact keeps_lamps fun _ => .inr rfl
  · exact (Keeps.of_looked rfl (Nat.le_refl _) : Keeps s
      { s with no := { s.no with conflict := ⟨s.no.conflict.lit, none⟩ } }).trans
      (keeps_testConflictLamp _)

theorem keeps_endSpacing (s : State) : Keeps s (endSpacing s) := by
  have h : Keeps s { s with ba := { s.ba with spacingDue := none } } := keeps_ba s _
  unfold endSpacing
  dsimp only
  split
  · exact h.trans (keeps_placeStatus _)
  · exact h

/-- What the own effect of every command but the claim spacing timer's keeps. -/
theorem keeps_effect {i : Instr} {s x : State} (h : effect i s = some x)
    (hi : i ≠ .claimSpacingExpiry) : Keeps s x := by
  have same {t : State} {y : State} (e : looked y = looked t) (hn : t.now ≤ y.now) : Keeps t y :=
    .of_looked e hn
  cases i <;> simp only [effect] at h
  case sensorRound => exact keeps_timed h fun _ => same rfl (Nat.le_refl _)
  case sensorSample a b c =>
    unfold sampleEffect at h
    split at h
    · cases h
    · exact keeps_timed h fun s => (keeps_setSu (.inr rfl) : Keeps s (beginTransaction _ s)).trans
        (keeps_takeSample _ _ _)
  case debounceExpiry n =>
    refine keeps_timed h fun s => Keeps.trans (keeps_setSu (.inr ?_)) (keeps_inputActs _ _)
    cases n <;> rfl
  case maintenanceEntry => exact keeps_whenReady h keeps_enterMaintenance
  case slotInputFilterExpiry k n => exact keeps_timed h fun _ => same rfl (Nat.le_refl _)
  case slotInputInitialLevels => exact keeps_timed h fun _ => same rfl (Nat.le_refl _)
  case startTimerExpiry k => exact keeps_timed h fun _ => same rfl (Nat.le_refl _)
  case coastTimerExpiry k => exact keeps_timed h fun _ => same rfl (Nat.le_refl _)
  case tripHoldExpiry k => exact keeps_timed h fun _ => same rfl (Nat.le_refl _)
  case paceUpdate => exact keeps_timed h keeps_paceUpdate
  case changeTimerExpiry => exact keeps_timed h fun _ => same rfl (Nat.le_refl _)
  case yieldHoldExpiry id => exact keeps_timed h (keeps_removeYield id)
  case incidentReceived => exact keeps_taken h
  case endReceived => exact keeps_taken h
  case statusReceived => exact keeps_taken h
  case claimReceived => exact keeps_taken h
  case withdrawReceived => exact keeps_taken h
  case releaseReceived => exact keeps_taken h
  case invalidFrameTaken => exact keeps_taken h
  case reannounce id => exact keeps_timed h (keeps_endDefer id)
  case endRepeat id => exact keeps_timed h (keeps_repeatEnd id)
  case endingTimerExpiry id =>
    obtain ⟨t, ht, rfl⟩ := Option.map_eq_some_iff.1 h
    exact (keeps_reachTime t s).trans (keeps_endingTimer (endingDue_look ht))
  case peerSilent p =>
    exact keeps_timed h fun s => (same rfl (Nat.le_refl _) : Keeps s (silencePeer p s)).trans
      (iuKeeps_grown _).keeps
  case claimPlacement => exact keeps_whenReady h fun _ => keeps_testClaim s
  case claimSpacingExpiry => exact absurd rfl hi
  case settleExpiry =>
    unfold settleEffect at h
    split at h
    · rename_i c due ho
      obtain ⟨t, rfl, rfl⟩ := Option.map_eq_some_iff.1 h
      exact (keeps_reachTime t s).trans (keeps_settle (s := reachTime t s) ho)
    · cases h
    · cases h
  case claimRenewal =>
    unfold renewEffect at h
    split at h
    · rename_i c due ho
      obtain ⟨t, rfl, rfl⟩ := Option.map_eq_some_iff.1 h
      exact (keeps_reachTime t s).trans (keeps_renewClaim (s := reachTime t s) ho)
    · cases h
    · cases h
  case claimEntryExpiry p => exact keeps_timed h (keeps_setView_filter _)
  case presenceTimerExpiry => exact keeps_timed h keeps_placeStatus
  case statusSpacingExpiry => exact keeps_timed h keeps_endSpacing
  case healthFlagExpiry f => exact keeps_timed h fun _ => same rfl (Nat.le_refl _)
  case sendStart => exact keeps_sendStart h
  case sendSuccess =>
    unfold successEffect at h
    split at h
    · cases h
    · rename_i x hx
      obtain ⟨t, -, rfl⟩ := Option.map_eq_some_iff.1 h
      exact (keeps_reachTime t s).trans (keeps_sent (s := reachTime t s) hx)
  case collision k b =>
    unfold collisionEffect at h
    split at h
    · cases h
    · rename_i x hx
      split at h
      · cases h
      · split at h
        · cases h
        · obtain ⟨t, -, rfl⟩ := Option.map_eq_some_iff.1 h
          exact (keeps_reachTime t s).trans (keeps_collided (s := reachTime t s) hx rfl)
  case receiverSync => exact keeps_timed h fun _ => same rfl (Nat.le_refl _)
  case frameArrival o => exact keeps_characterEffect h
  case rxFrameDiscard o b => exact keeps_characterEffect h
  case rxTruncation => exact keeps_timed h keeps_discardAssembly
  case cmdLampExpiry l => exact keeps_timed h (keeps_lampExpired l)
  case slotFltPhase k => exact keeps_timed h fun _ => same rfl (Nat.le_refl _)
  case characterReceived o b => exact keeps_characterEffect h
  all_goals cases h

/-- The claim spacing timer stops: the forms stand, and the claim-kind frames where the number of the next CLAIM
is free (R98). -/
theorem keepsForms_claimSpacing {s x : State} (h : effect .claimSpacingExpiry s = some x) :
    KeepsForms s x ∧ (ClaimsOk s → NextNumberFree s → ClaimsOk x) := by
  obtain ⟨t, -, rfl⟩ := Option.map_eq_some_iff.1 h
  exact ⟨(keeps_reachTime t s).toKeepsForms.trans (keepsForms_spacing _),
    fun c n => ⟨c.state, c.fault, .inl n⟩⟩

theorem keepsForms_effect {i : Instr} {s x : State} (h : effect i s = some x) : KeepsForms s x := by
  by_cases hi : i = .claimSpacingExpiry
  · subst hi; exact (keepsForms_claimSpacing h).1
  · exact (keeps_effect h hi).toKeepsForms

theorem claimsOk_effect {i : Instr} {s x : State} (h : effect i s = some x) (q : TxForm s.li.tx)
    (c : ClaimsOk s) (n : NextNumberFree s) : ClaimsOk x := by
  by_cases hi : i = .claimSpacingExpiry
  · subst hi; exact (keepsForms_claimSpacing h).2 c n
  · exact (keeps_effect h hi).claims q c

/-! ## Resets, pins and the end of JOINING -/

theorem keeps_unhold (s : State) : Keeps s (if s.iu.heldAlarm then
    actOnAlarm { s with iu := { s.iu with heldAlarm := false } } else s) := by
  split
  · refine Keeps.trans ?_ (iuKeeps_actOnAlarm _).keeps
    exact .of_looked rfl (Nat.le_refl _)
  · exact .refl s

/-- The end of JOINING takes its mode by the list and acts on a held alarm (R170). -/
theorem keeps_leaveJoining (s : State) : Keeps s (leaveJoining s) := by
  refine Keeps.trans ?_ (keeps_unhold _)
  exact ⟨⟨fun b => ⟨b.records, b.distinct, b.answered, b.view, b.rx, b.tx, b.history⟩, id, id,
      fun x => x.of_heard rfl (Nat.le_refl _), fun _ => id⟩,
      fun _ x => x.of_same rfl rfl rfl rfl rfl fun y => absurd y (listMode_ne_fault _)⟩

theorem keeps_joined (t : Time) (s : State) : Keeps s (joined t s) :=
  (keeps_reachTime t s).trans ((keeps_leaveJoining _).trans ((keeps_follow _ _).trans
    (keeps_placeEarly _)))

theorem keeps_maintAtJoin (s : State) : Keeps s (maintAtJoin s) := by
  unfold maintAtJoin
  split
  · exact .of_looked rfl (Nat.le_refl _)
  · exact .refl s

/-- A reset leaves nothing that the forms speak of (R168). -/
theorem keeps_holdReset (keep : Bool) (s : State) : Keeps s (holdReset keep s) where
  bounded := fun _ => ⟨Nat.zero_le _, .nil, .nil, Nat.zero_le _, Nat.zero_le _, Nat.zero_le _, rfl⟩
  lamp := fun _ => .inl rfl
  queue := fun _ => ⟨.nil, Nat.zero_le _, .nil⟩
  view := fun _ => ⟨.nil, by rintro e ⟨⟩, .nil⟩
  chains := fun _ _ id y h => by cases h
  claims := fun _ _ => ⟨.idle _, fun _ => rfl, .inl ⟨by rintro b ⟨⟩, by rintro b ⟨⟩,
    by simp [holdReset, State.reset, ownNumber]⟩⟩

/-- The release of a reset leaves all but the mode, the slots and the inputs' debounce (R165, R168). -/
theorem keepsForms_releaseReset (w : BitVec 28) (s : State) : KeepsForms s (releaseReset w s) :=
  ⟨fun b => ⟨b.records, b.distinct, b.answered, b.view, b.rx, b.tx, b.history⟩, id, id,
    fun x => x.of_heard rfl (Nat.le_refl _), fun _ => id⟩

/-- What every command keeps of the forms. -/
theorem keepsForms_answers {i : Instr} {s u : State} (h : Answers i s u) : KeepsForms s u := by
  cases h with
  | powerOn => exact (keeps_holdReset false s).toKeepsForms
  | external => exact (keeps_holdReset true s).toKeepsForms
  | release w _ _ => exact keepsForms_releaseReset w s
  | level n v => exact (keeps_setSu (.inr (by cases n <;> rfl))).toKeepsForms
  | pin k n v p _ _ =>
    exact (Keeps.of_looked rfl (Nat.le_refl _) :
      Keeps s (setSlot k ((s.slot k).setInput n p) s)).toKeepsForms
  | idle => exact .refl s
  | join t _ _ =>
    exact ((keeps_joined t s).trans ((keeps_maintAtJoin _).trans (keeps_closeEvent _ _))).toKeepsForms
  | event _ _ x _ _ own => exact (keepsForms_effect own).trans (keeps_closeEvent s x).toKeepsForms

/-- The claim-kind frames after every command, the number of the next CLAIM free before it (R92, R106). -/
theorem claimFrames_answers {i : Instr} {s u : State} (h : Answers i s u) (q : TxForm s.li.tx)
    (c : ClaimsOk s) (n : NextNumberFree s) : ClaimFrames u := by
  have ok (t : State) (k : ClaimsOk t) : ClaimFrames t := (claimFrames_iff t).2 k.state
  cases h with
  | powerOn => exact ok _ ((keeps_holdReset false s).claims q c)
  | external => exact ok _ ((keeps_holdReset true s).claims q c)
  | release w _ _ => exact (claimFrames_iff _).2 c.state
  | level _ _ => exact (claimFrames_iff _).2 c.state
  | pin k n v p _ _ => exact (claimFrames_iff _).2 c.state
  | idle => exact ok s c
  | join t _ _ =>
    exact ok _ (((keeps_joined t s).trans ((keeps_maintAtJoin _).trans (keeps_closeEvent _ _))).claims q c)
  | event _ _ x _ _ own =>
    exact ok _ ((keeps_closeEvent s x).claims ((keepsForms_effect own).queue q)
      (claimsOk_effect own q c n))

/-- What every step keeps of the forms: the clock and the queue of commands are no part of them. -/
theorem keepsForms_step {s u : State} (h : step s = .next u) : KeepsForms s u := by
  rcases step_next h with ⟨c, rest, h⟩ | ⟨c, h⟩ | rfl
  · have hq : Keeps s { s with pending := rest } := .of_looked rfl (Nat.le_refl _)
    exact hq.toKeepsForms.trans (keepsForms_answers (exec_answers h))
  · exact keepsForms_answers (exec_answers h)
  · exact (Keeps.of_looked rfl (Nat.le_succ _) : Keeps s (clockTick s)).toKeepsForms

theorem claimFrames_step {s u : State} (h : step s = .next u) (q : TxForm s.li.tx) (c : ClaimsOk s)
    (n : NextNumberFree s) : ClaimFrames u := by
  rcases step_next h with ⟨i, rest, h⟩ | ⟨i, h⟩ | rfl
  · have hq : Keeps s { s with pending := rest } := .of_looked rfl (Nat.le_refl _)
    exact claimFrames_answers (exec_answers h) q (hq.claims q c) n
  · exact claimFrames_answers (exec_answers h) q c n
  · exact (claimFrames_iff _).2 c.state

/-- Settles O54, by what each block's operations keep: the forms along every effect and its closing
(`keepsForms_step`), and the claim-kind frames by the few situations they can be in (`ClaimState`). -/
theorem stepKeepsTheCapacities : Obligations.StepKeepsTheCapacities := by
  refine ⟨fun s u hb hl h => ?_, fun s u hq h => ?_, fun s u hv h => ?_, fun s u hq hf hc hn h => ?_,
    fun s hc => ?_⟩
  · exact ⟨(keepsForms_step h).bounded hb, (keepsForms_step h).lamp hl⟩
  · rw [queueForm_iff] at hq ⊢
    exact (keepsForms_step h).queue hq
  · exact (keepsForms_step h).view hv
  · refine claimFrames_step h ((queueForm_iff s).1 hq) ⟨(claimFrames_iff s).1 hc, fun m => ?_, .inl hn⟩ hn
    rw [(hf m).tx]; rfl
  · exact ((claimFrames_iff s).1 hc).length

/-- Settles O55: in a list within its capacity the links are told by the shapes of the records, and every
operation on the list keeps them (`IuKeeps.chains`). -/
theorem stepKeepsTheChains : Obligations.StepKeepsTheChains := by
  intro s u hb hc h
  have k := keepsForms_step h
  rw [chainsEnd_iff hb.capped] at hc
  rw [chainsEnd_iff (k.bounded hb).capped]
  exact k.chains hb hc

end Sys2Proof.Machine
end

section
/-! PROOFS. No record goes back: what a held record can become, operation by operation on the list, and that
only a notice can evict an ENDED record and make its id anew (O59). -/

namespace Sys2Proof.Machine

/-! ## What a record can become -/

/-- What a record that stays held can become: its span no narrower while it is ACTIVE, and no road back (R1,
R2). -/
inductive Evolves : RecState → RecState → Prop where
  | active {c c' : Content} {d d' : Option Demand} (lo : c'.lo ≤ c.lo) (hi : c.hi ≤ c'.hi) :
      Evolves (.active c d) (.active c' d')
  | absorbed {p : RecState} {y : Id} (open_ : ∀ n t, p ≠ .ended n t) : Evolves p (.absorbed y)
  | ended {p : RecState} {n : Nat} {t : Time} (open_ : ∀ n t, p ≠ .ended n t) : Evolves p (.ended n t)
  | still (n : Nat) (t : Time) : Evolves (.ended n t) (.ended n t)

theorem Evolves.refl (p : RecState) : Evolves p p := by
  cases p with
  | active c d => exact .active (Nat.le_refl _) (Nat.le_refl _)
  | absorbed y => exact .absorbed (by simp)
  | ended n t => exact .still n t

theorem Evolves.trans {p q r : RecState} (h : Evolves p q) (g : Evolves q r) : Evolves p r := by
  cases h with
  | active lo hi =>
    cases g with
    | active lo' hi' => exact .active (lo'.trans lo) (hi.trans hi')
    | absorbed _ => exact .absorbed (by simp)
    | ended _ => exact .ended (by simp)
  | absorbed o =>
    cases g with
    | absorbed _ => exact .absorbed o
    | ended _ => exact .ended o
  | ended o =>
    cases g with
    | absorbed o' => exact absurd rfl (o' _ _)
    | ended o' => exact absurd rfl (o' _ _)
    | still _ _ => exact .ended o
  | still n t => exact g

/-- Every record stays held and becomes what it can, and none is new. -/
def Grows (rs qs : List Rec) : Prop := ∀ id, Option.Rel Evolves (held rs id) (held qs id)

theorem Grows.refl (rs : List Rec) : Grows rs rs := fun id => by
  cases held rs id with
  | none => exact .none
  | some p => exact .some (.refl p)

theorem Grows.of_eq {rs qs : List Rec} (h : qs = rs) : Grows rs qs := h ▸ .refl rs

theorem Grows.trans {rs qs ts : List Rec} (h : Grows rs qs) (g : Grows qs ts) : Grows rs ts := fun id => by
  have hi := h id
  have gi := g id
  generalize held rs id = a at hi
  generalize held qs id = b at hi gi
  cases hi with
  | none => exact gi
  | some e =>
    generalize held ts id = c at gi
    cases gi with
    | some f => exact .some (e.trans f)

/-- A change of the records in their places, each to what it can become. -/
theorem Grows.of_map {rs qs : List Rec} (f : Id → RecState → RecState)
    (hq : ∀ id, held qs id = (held rs id).map (f id))
    (hf : ∀ id p, held rs id = some p → Evolves p (f id p)) : Grows rs qs := fun id => by
  rw [hq]
  cases h : held rs id with
  | none => exact .none
  | some p => exact .some (hf id p h)

theorem Grows.held_some {rs qs : List Rec} (h : Grows rs qs) {id : Id} {q : RecState}
    (hq : held qs id = some q) : ∃ p, held rs id = some p ∧ Evolves p q := by
  have hi := h id
  rw [hq] at hi
  generalize held rs id = a at hi
  cases hi with
  | some e => exact ⟨_, rfl, e⟩

theorem Grows.held_none {rs qs : List Rec} (h : Grows rs qs) {id : Id}
    (hq : held qs id = none) : held rs id = none := by
  have hi := h id
  rw [hq] at hi
  generalize held rs id = a at hi
  cases hi with
  | none => rfl

/-! ## The operations that add no record -/

theorem evolves_onContent {f : Content → Content} (hf : ∀ c, (f c).lo ≤ c.lo ∧ c.hi ≤ (f c).hi)
    (p : RecState) : Evolves p (onContent f p) := by
  cases p with
  | active c d => exact .active (hf c).1 (hf c).2
  | absorbed y => exact .refl _
  | ended n t => exact .refl _

theorem grows_onContent {f : Content → Content} (hf : ∀ c, (f c).lo ≤ c.lo ∧ c.hi ≤ (f c).hi)
    (rs : List Rec) : Grows rs (rs.map fun r => ⟨r.id, onContent f r.st⟩) :=
  .of_map (fun _ st => onContent f st) (held_map (fun _ st => onContent f st) rs)
    fun _ p _ => evolves_onContent hf p

theorem grows_setContent {rs : List Rec} {x : Id} {c c' : Content} {d : Option Demand}
    (h : held rs x = some (.active c d)) (hl : c'.lo ≤ c.lo) (hh : c.hi ≤ c'.hi) :
    Grows rs (setContent rs x c') := by
  refine .of_map (fun id st => if id = x then withContent c' st else st)
    (fun id => held_setContent rs x id c') fun id p hp => ?_
  by_cases e : id = x
  · subst e
    rw [h] at hp
    cases hp
    rw [if_pos rfl]
    exact .active hl hh
  · rw [if_neg e]; exact .refl p

theorem grows_absorbed {rs : List Rec} {x : Id} (y : Id) {p : RecState} (h : held rs x = some p)
    (hp : ∀ n t, p ≠ .ended n t) : Grows rs (setRecState rs x (.absorbed y)) := by
  refine .of_map (fun id st => if id = x then .absorbed y else st)
    (fun id => held_setRecState rs x id (.absorbed y)) fun id q hq => ?_
  by_cases e : id = x
  · subst e
    rw [h] at hq
    cases hq
    rw [if_pos rfl]
    exact .absorbed hp
  · rw [if_neg e]; exact .refl q

theorem grows_of_bare {rs qs : List Rec} (h : qs.map bare = rs.map bare) : Grows rs qs := fun id => by
  have hb (ps : List Rec) : held (ps.map bare) id = (held ps id).map (withDemand none) := by
    have : ps.map bare = ps.map fun r => ⟨r.id, withDemand none r.st⟩ := by
      refine List.map_congr_left fun r _ => ?_
      obtain ⟨i, st⟩ := r
      cases st <;> rfl
    rw [this, held_map fun _ st => withDemand none st]
  have e := hb qs
  rw [h, hb rs] at e
  cases hr : held rs id with
  | none =>
    rw [hr] at e
    cases hq : held qs id with
    | none => exact .none
    | some q => rw [hq] at e; cases e
  | some p =>
    rw [hr] at e
    cases hq : held qs id with
    | none => rw [hq] at e; cases e
    | some q =>
      rw [hq] at e
      refine .some ?_
      have e : withDemand none p = withDemand none q := Option.some.inj e
      cases p <;> cases q <;> simp only [withDemand, reduceCtorEq, RecState.active.injEq,
        RecState.absorbed.injEq, RecState.ended.injEq] at e
      · rw [e.1]; exact .active (Nat.le_refl _) (Nat.le_refl _)
      · rw [e]; exact .refl _
      · rw [e.1, e.2]; exact .refl _

theorem Closes.grows {s t : State} (h : Closes s t) : Grows s.iu.records t.iu.records :=
  grows_of_bare h.bare

theorem grows_foldInto {x y : Id} (hne : x ≠ y) (s : State) :
    Grows s.iu.records (foldInto x y s).iu.records := by
  cases hx : (findRec s.iu.records x).bind contentOf with
  | none => exact .of_eq (by rw [foldInto_none (.inl hx)])
  | some cx =>
    cases hy : (findRec s.iu.records y).bind contentOf with
    | none => exact .of_eq (by rw [foldInto_none (.inr hy)])
    | some cy =>
      obtain ⟨dx, hx'⟩ := content_held.1 hx
      obtain ⟨dy, hy'⟩ := content_held.1 hy
      have hx'' : held (setRecState s.iu.records y (.absorbed x)) x = some (.active cx dx) := by
        rw [held_setRecState, hx', Option.map_some, if_neg hne]
      rw [foldInto_records hx hy]
      exact (grows_absorbed x hy' (by simp)).trans
        (grows_setContent hx'' (Nat.min_le_left _ _) (Nat.le_max_left _ _))

theorem burntSpan_wider (s : State) (c : Content) : (burntSpan s c).lo ≤ c.lo ∧ c.hi ≤ (burntSpan s c).hi := by
  constructor
  · simp only [burntSpan]; split <;> omega
  · simp only [burntSpan]; split <;> omega

theorem reached_wider (p : Nat) (c : Content) : (reached p c).lo ≤ c.lo ∧ c.hi ≤ (reached p c).hi := by
  unfold reached
  split
  · exact ⟨Nat.min_le_left _ _, Nat.le_max_left _ _⟩
  · exact ⟨Nat.le_refl _, Nat.le_refl _⟩

theorem grows_settleSpans (n : Nat) (s : State) : Grows s.iu.records (settleSpans n s).iu.records := by
  induction n generalizing s with
  | zero => exact .refl _
  | succ n ih =>
    unfold settleSpans
    split
    · rename_i p hp
      refine (grows_foldInto (keyLt_ne (firstPair_keyLt hp)) s).trans (.trans (.of_eq ?_) (ih (absorbPair p s)))
      exact triggerAll_records _ _
    · split
      · exact .refl _
      · refine .trans ?_ (ih _)
        rw [takeBurnt_records]
        exact grows_onContent (burntSpan_wider s) _

theorem grows_grown (s : State) : Grows s.iu.records (grown s).iu.records := grows_settleSpans _ s

theorem grows_extendRecords (s : State) : Grows s.iu.records (extendRecords s).iu.records := by
  rw [extendRecords_eq]
  split
  · exact .refl _
  · refine .trans ?_ (grows_grown _)
    rw [triggerAll_records]
    exact grows_onContent (reached_wider _) _

/-- Ending a chain at an ACTIVE record ends no record that was ENDED already (R21). -/
theorem grows_endChain {g : Id} {s : State} (hg : look s.iu.records g = some .active) :
    Grows s.iu.records (endChain g s).iu.records := by
  refine .of_map _ (endChain_held g s) fun id p hp => ?_
  by_cases h : resolvesTo s.iu.records g id = true
  · rw [if_pos h]
    cases p with
    | ended n t =>
      have hf := held_eq_some.1 hp
      rw [resolvesTo_iff, resolve_self hf (by simp)] at h
      cases h
      rw [look_of_find hf] at hg
      cases hg
    | active c d => exact .ended (by simp)
    | absorbed y => exact .ended (by simp)
  · rw [if_neg h]; exact .refl p

theorem grows_replaceContent {id : Id} {old : Content} {d : Option Demand} {s : State} (c : Content)
    (h : held s.iu.records id = some (.active old d)) :
    Grows s.iu.records (replaceContent id old (merge old c) s).iu.records := by
  rw [replaceContent_records]
  exact grows_setContent h (Nat.min_le_left _ _) (Nat.le_max_left _ _)

/-! ## New records -/

/-- What becomes of a held record, where from a full list an ENDED one may have made room and been made anew
(R3, log 28). -/
def Becomes (rs : List Rec) (p q : RecState) : Prop :=
  Evolves p q ∨ (∃ n t, p = .ended n t) ∧ 6 ≤ rs.length ∧ ∀ c d, q ≠ .active c d

/-- Whatever is held before and after became what it could. -/
def Lasts (rs qs : List Rec) : Prop :=
  ∀ id p q, held rs id = some p → held qs id = some q → Becomes rs p q

/-- So it did, and only ENDED records of a full list have gone. -/
structure Lasting (rs qs : List Rec) : Prop where
  stays : Lasts rs qs
  gone : ∀ id p, held rs id = some p → held qs id = none → (∃ n t, p = .ended n t) ∧ 6 ≤ rs.length

theorem Becomes.evolves {rs : List Rec} {p q r : RecState} (h : Becomes rs p q) (g : Evolves q r) :
    Becomes rs p r := by
  rcases h with h | ⟨hp, hl, hq⟩
  · exact .inl (h.trans g)
  · refine .inr ⟨hp, hl, fun c d e => ?_⟩
    subst e
    cases g with
    | active _ _ => exact hq _ _ rfl

theorem Lasts.grows {rs qs ts : List Rec} (h : Lasts rs qs) (g : Grows qs ts) : Lasts rs ts := by
  intro id p r hp hr
  obtain ⟨q, hq, e⟩ := g.held_some hr
  exact (h id p q hp hq).evolves e

theorem Grows.lasting {rs qs : List Rec} (h : Grows rs qs) : Lasting rs qs where
  stays := fun id p q hp hq => by
    obtain ⟨p', hp', e⟩ := h.held_some hq
    rw [hp] at hp'
    cases hp'
    exact .inl e
  gone := fun id p hp hq => by rw [h.held_none hq] at hp; cases hp

theorem Lasting.grows {rs qs ts : List Rec} (h : Lasting rs qs) (g : Grows qs ts) : Lasting rs ts :=
  ⟨h.stays.grows g, fun id p hp ht => h.gone id p hp (g.held_none ht)⟩

theorem held_of_makeRoom {rs qs : List Rec} (hd : (rs.map Rec.id).Nodup) (h : makeRoom rs = some qs)
    {id : Id} : held qs id = held rs id ∨
      held qs id = none ∧ (∃ n t, held rs id = some (.ended n t)) ∧ 6 ≤ rs.length := by
  rcases makeRoom_cases h with ⟨-, rfl⟩ | ⟨hl, x, hx, he, rfl⟩
  · exact .inl rfl
  · rw [held_filter_ne]
    by_cases e : id = x.id
    · rw [if_pos e]
      refine .inr ⟨rfl, ?_, hl⟩
      obtain ⟨n, t, hst⟩ := isEnded_iff.1 he
      rw [e]
      exact ⟨n, t, by rw [held_of_mem hd hx, hst]⟩
    · rw [if_neg e]; exact .inl rfl

/-- A record takes the place made for it: its id was not held, or it was ENDED in a full list (R3). -/
theorem Lasting.add {rs ts qs : List Rec} {r : Rec} (h : Lasting rs ts) (hd : (ts.map Rec.id).Nodup)
    (hm : makeRoom ts = some qs)
    (hn : held ts r.id = none) (ha : (∃ p, held rs r.id = some p) → ∀ c d, r.st ≠ .active c d) :
    Lasts rs (addRec qs r) := by
  intro id p q hp hq
  rw [held_addRec] at hq
  have hroom := held_of_makeRoom hd hm (id := id)
  by_cases e : id = r.id
  · subst e
    obtain ⟨he, hf⟩ := h.gone _ p hp hn
    have hqn : held qs r.id = none := by
      rcases hroom with x | ⟨x, -⟩
      · rw [x]; exact hn
      · exact x
    rw [hqn] at hq
    simp only [if_true, Option.some.injEq] at hq
    subst hq
    exact .inr ⟨he, hf, ha ⟨p, hp⟩⟩
  · rcases hroom with x | ⟨x, -⟩
    · simp only [x, if_neg e] at hq
      exact h.stays id p q hp (by simpa using hq)
    · simp [x, if_neg e] at hq

theorem Lasts.of_eq {rs qs : List Rec} (h : qs = rs) : Lasts rs qs := (Grows.of_eq h).lasting.stays

/-- A new id takes the place made for it (R3). -/
theorem Lasting.add_new {rs qs : List Rec} {r : Rec} (hd : (rs.map Rec.id).Nodup)
    (hm : makeRoom rs = some qs) (hn : held rs r.id = none) : Lasting rs (addRec qs r) where
  stays := (Grows.refl rs).lasting.add hd hm hn fun ⟨p, hp⟩ => by rw [hn] at hp; cases hp
  gone := fun id p hp hq => by
    rw [held_addRec] at hq
    by_cases e : id = r.id
    · rw [if_pos e] at hq; cases hq
    · rw [if_neg e] at hq
      rcases held_of_makeRoom hd hm (id := id) with x | ⟨-, ⟨n, t, x⟩, hl⟩
      · rw [← x, hq] at hp; cases hp
      · rw [hp] at x; cases x; exact ⟨⟨n, t, rfl⟩, hl⟩

/-! ## The Incident Unit's acts -/

theorem lasts_declare {s : State} (hd : (s.iu.records.map Rec.id).Nodup)
    (hn : findRec s.iu.records ⟨s.station, s.iu.counter⟩ = none) :
    Lasts s.iu.records (declare s).iu.records := by
  unfold declare
  split
  · exact .of_eq rfl
  · rename_i rs hm
    refine (Lasts.grows ?_ (grows_grown _))
    rw [placeIncident_records]
    exact (Lasting.add_new (r := declaredRec s) hd hm (held_eq_none.2 hn)).stays

theorem lasts_actOnAlarm {s : State} (hd : (s.iu.records.map Rec.id).Nodup)
    (hn : findRec s.iu.records ⟨s.station, s.iu.counter⟩ = none) :
    Lasts s.iu.records (actOnAlarm s).iu.records := by
  unfold actOnAlarm
  split
  · exact (grows_extendRecords s).lasting.stays
  · exact lasts_declare hd hn

theorem lasts_alarmEvent {s : State} (hd : (s.iu.records.map Rec.id).Nodup)
    (hn : findRec s.iu.records ⟨s.station, s.iu.counter⟩ = none) :
    Lasts s.iu.records (alarmEvent s).iu.records := by
  unfold alarmEvent
  split
  · exact .of_eq rfl
  · exact lasts_actOnAlarm hd hn
  · exact lasts_actOnAlarm hd hn
  · exact lasts_actOnAlarm hd hn
  · exact .of_eq rfl

theorem governing_active {s : State} {g : Governing} (h : governing s = some g) :
    held s.iu.records g.id = some (.active g.content g.demand) := by
  obtain ⟨r, hr, hst⟩ := governing_rec h
  unfold held
  rw [hr, Option.map_some, hst]

theorem look_of_active {rs : List Rec} {id : Id} {c : Content} {d : Option Demand}
    (h : held rs id = some (.active c d)) : look rs id = some .active := by unfold look; rw [h]; rfl

theorem grows_directionCommand (d : Direction) (o : Bool) (s : State) :
    Grows s.iu.records (directionCommand d o s).iu.records := by
  unfold directionCommand
  split
  · exact .refl _
  · rename_i g hg
    split
    · have h : (lightAccept (triggerReannounce g.id (setRecords (setContent s.iu.records g.id
          { g.content with dir := d, rev := g.content.rev + 1, cmd := some s.station }) s))).iu.records =
          setContent s.iu.records g.id
            { g.content with dir := d, rev := g.content.rev + 1, cmd := some s.station } := by simp
      rw [h]
      exact grows_setContent (governing_active hg) (Nat.le_refl _) (Nat.le_refl _)
    · exact .refl _

theorem grows_standDown (s : State) : Grows s.iu.records (standDown s).iu.records := by
  unfold standDown
  split
  · exact .refl _
  · rename_i g hg
    refine (grows_endChain (look_of_active (governing_active hg))).trans (.of_eq ?_)
    simp

theorem lasts_receiveEnd {s : State} (c : Capped s.iu.records) (hc : Chained (look s.iu.records))
    (id : Id) : Lasts s.iu.records (receiveEnd id s).iu.records := by
  unfold receiveEnd
  split
  · rename_i hn
    split
    · exact .of_eq rfl
    · rename_i rs hm
      exact (Lasting.add_new (r := ⟨id, .ended s.iu.endings (s.now + endingTime)⟩) c.distinct hm
        (held_eq_none.2 (hc.not_held c.length hn))).stays
  · rename_i r hr
    split
    · exact .of_eq rfl
    · rename_i he
      exact (grows_endChain (look_of_resolve hr (by simpa using he))).lasting.stays

/-- A view makes a new record or widens the one its id resolves to (R15). -/
theorem lasting_applyView {s : State} (k : Capped s.iu.records) (hc : Chained (look s.iu.records))
    (id : Id) (c : Content) : Lasting s.iu.records (applyView id c s).1.iu.records := by
  unfold applyView
  split
  · rename_i hn
    split
    · exact (Grows.refl _).lasting
    · rename_i rs hm
      exact Lasting.add_new (r := ⟨id, .active c none⟩) k.distinct hm
        (held_eq_none.2 (hc.not_held k.length hn))
  · rename_i r hr
    split
    · rename_i old d hst
      obtain ⟨hf, -⟩ := resolve_some hr
      refine (grows_replaceContent (d := d) c ?_).lasting
      unfold held
      rw [hf, Option.map_some, hst]
    · exact (Grows.of_eq (answerEnd_records _ _)).lasting
    · exact (Grows.refl _).lasting

theorem lasts_receiveActive {s : State} (k : Capped s.iu.records) (hc : Chained (look s.iu.records))
    (id : Id) (c : Content) : Lasts s.iu.records (receiveActive id c s).iu.records := by
  unfold receiveActive
  dsimp only
  split
  · exact (lasting_applyView k hc id c).stays
  · rw [divergeFrom_records, dropSaid_records]
    exact ((lasting_applyView k hc id c).grows (grows_grown _)).stays

/-- What becomes of `x` is a link, whatever came before (R13). -/
theorem Grows.then_absorbed {rs qs : List Rec} (h : Grows rs qs) {x : Id} (y : Id) {p : RecState}
    (hx : held rs x = some p) (hp : ∀ n t, p ≠ .ended n t) :
    Grows rs (setRecState qs x (.absorbed y)) := fun id => by
  rw [held_setRecState]
  have hi := h id
  generalize hq : held qs id = q at hi
  by_cases e : id = x
  · subst e
    rw [hx] at hi ⊢
    cases hi with
    | some _ => rw [Option.map_some, if_pos rfl]; exact .some (.absorbed hp)
  · simpa [e] using hi

/-- The absorbed id of a notice, in a list that has come from `rs` by the view of the survivor (R17). -/
theorem lasts_absorbNoted {rs : List Rec} {t : State} (h : Lasting rs t.iu.records)
    (k : Capped t.iu.records) (x y : Id) : Lasts rs (absorbNoted x y t).iu.records := by
  have same (u : State) (hu : u.iu.records = t.iu.records) : Lasts rs u.iu.records := by
    rw [hu]; exact h.stays
  unfold absorbNoted
  split
  · exact h.stays
  rename_i e hy
  split
  · unfold absorbIntoEnded
    split
    · rename_i hx
      split
      · exact h.stays
      · rename_i qs hm
        exact h.add (r := ⟨x, .ended t.iu.endings (t.now + endingTime)⟩) k.distinct hm
          (held_eq_none.2 hx) (fun _ c d => by simp)
    · rename_i r hr
      split
      · rename_i hst
        exact h.stays.grows (grows_endChain (by rw [look_of_find hr, hst]; rfl))
      · exact h.stays
      · exact same _ (answerEnd_records _ _)
  · unfold absorbIntoActive
    split
    · rename_i hx
      split
      · exact h.stays
      · rename_i qs hm
        exact h.add (r := ⟨x, .absorbed y⟩) k.distinct hm (held_eq_none.2 hx) (fun _ c d => by simp)
    · rename_i r hr
      split
      · rename_i c d hst
        split
        · exact h.stays
        · rename_i hne
          have hx : held t.iu.records x = some (.active c d) := by
            unfold held; rw [hr, Option.map_some, hst]
          exact h.stays.grows ((grows_foldInto (fun e => hne e.symm) t).then_absorbed y hx
            (by rintro n t ⟨⟩))
      · exact h.stays
      · exact same _ (answerEnd_records _ _)

theorem lasts_receiveAbsorbed {s : State} (k : Capped s.iu.records) (hc : Chained (look s.iu.records))
    (x y : Id) (c : Content) : Lasts s.iu.records (receiveAbsorbed x y c s).iu.records := by
  have h := lasting_applyView k hc y c
  have k' := (iuKeeps_applyView y c s).capped k
  unfold receiveAbsorbed
  dsimp only
  split
  · exact h.stays
  · rw [divergeFrom_records, divergeFrom_records, dropSaid_records]
    exact (lasts_absorbNoted h k' x y).grows (grows_grown _)

theorem lasts_receiveIncident {s : State} (k : Capped s.iu.records) (hc : Chained (look s.iu.records))
    (b : Octets) : Lasts s.iu.records (receiveIncident b s).iu.records := by
  have hu (id : Id) (t : State) : (catchUp id t).iu.records = t.iu.records := catchUp_records id t
  unfold receiveIncident
  split
  · exact .of_eq rfl
  · rename_i id c _
    have := lasts_receiveActive (s := catchUp id s) (by rwa [hu]) (by rwa [hu]) id c
    rwa [hu] at this
  · rename_i x y c _
    have := lasts_receiveAbsorbed (s := catchUp y (catchUp x s)) (by rwa [hu, hu]) (by rwa [hu, hu]) x y c
    rwa [hu, hu] at this
  · rename_i id _
    have := lasts_receiveEnd (s := catchUp id s) (by rwa [hu]) (by rwa [hu]) id
    rwa [hu] at this

theorem lasts_receiveEnding {s : State} (k : Capped s.iu.records) (hc : Chained (look s.iu.records))
    (b : Octets) : Lasts s.iu.records (receiveEnding b s).iu.records := by
  unfold receiveEnding
  split
  · exact .of_eq rfl
  · rename_i id _
    have hu : (catchUp id s).iu.records = s.iu.records := catchUp_records id s
    have := lasts_receiveEnd (s := catchUp id s) (by rwa [hu]) (by rwa [hu]) id
    rwa [hu] at this

theorem grows_writeDemand (g : Governing) (d : Demand) (s : State) :
    Grows s.iu.records (writeDemand g d s).iu.records := grows_of_bare (map_bare_setDemand _ _ _)

theorem grows_considerDemand (p : Nat) (st : StatusPart) (s : State) :
    Grows s.iu.records (considerDemand p st s).iu.records := by
  unfold considerDemand
  split
  · split
    · split
      · exact grows_writeDemand _ _ s
      · split
        · exact grows_writeDemand _ _ s
        · exact .refl _
    · exact .refl _
  · exact .refl _

/-- In CONFIG_FAULT no record is held (R171). -/
theorem lasts_none (rs : List Rec) : Lasts rs [] := by
  intro id p q _ hq; cases hq

theorem lasts_receiveStatus (p : Nat) (b : Octets) (s : State) :
    Lasts s.iu.records (receiveStatus p b s).iu.records := by
  unfold receiveStatus
  split
  · split
    · unfold duplicateTest
      split
      · exact .of_eq rfl
      · split
        · exact lasts_none _
        · exact .of_eq rfl
    · exact .of_eq rfl
  · split
    · exact .of_eq rfl
    · rename_i st _
      have h : (takeStatus st (storeStatus p st s)).iu.records = s.iu.records := by
        rw [takeStatus_records]; rfl
      have g := grows_considerDemand p st (takeStatus st (storeStatus p st s))
      rw [h] at g
      exact g.lasting.stays

theorem lasts_handOff {s : State} (k : Capped s.iu.records) (hc : Chained (look s.iu.records))
    (f : Octets) : Lasts s.iu.records (handOff f s).iu.records := by
  unfold handOff
  split
  · exact lasts_receiveStatus _ _ s
  · exact lasts_receiveIncident k hc _
  · exact lasts_receiveEnding k hc _
  · unfold receiveClaim applyClaim
    refine .of_eq ?_
    split
    · split
      · rfl
      · dsimp only; split
        · split <;> rfl
        · rfl
    · rfl
  · unfold receiveClaimEnd; refine .of_eq ?_; split
    · split <;> rfl
    · rfl
  · unfold receiveClaimEnd; refine .of_eq ?_; split
    · split <;> rfl
    · rfl
  · exact .of_eq rfl

end Sys2Proof.Machine
end

section
/-! PROOFS. No command takes a record back (O59): the operations on the list gathered over every command. -/

namespace Sys2Proof.Machine

/-- What the list is to be before an event that may make a record: within its capacity, its chains ending, and
the id the station would declare next not held (R3, R5, R13). -/
structure Fresh (s : State) : Prop where
  capped : Capped s.iu.records
  chained : Chained (look s.iu.records)
  next : findRec s.iu.records ⟨s.station, s.iu.counter⟩ = none

theorem Fresh.of_same {s t : State} (h : Fresh s) (hr : t.iu.records = s.iu.records)
    (hc : t.iu.counter = s.iu.counter) (hj : t.sj.straps = s.sj.straps) : Fresh t :=
  ⟨by rw [hr]; exact h.capped, by rw [hr]; exact h.chained, by
    have := h.next
    unfold State.station at *
    rw [hr, hc, hj]; exact this⟩

theorem lasts_heatAlarmStep (v : Option Int) {s : State} (h : Fresh s) :
    Lasts s.iu.records (heatAlarmStep v s).iu.records := by
  unfold heatAlarmStep
  split
  · split
    · exact lasts_alarmEvent (s := setSu { s.su with alarm := .alarmed 0 } s) h.capped.distinct h.next
    · exact .of_eq rfl
  · exact .of_eq rfl

theorem noteInvalid_rest (v : Option Int) (r : Reading) (s : State) :
    (noteInvalid v r s).iu = s.iu ∧ (noteInvalid v r s).sj = s.sj := by
  unfold noteInvalid
  split <;> exact ⟨rfl, rfl⟩

theorem lasts_takeSample (x : Sensor) (v : Option Int) {s : State} (h : Fresh s) :
    Lasts s.iu.records (takeSample x v s).iu.records := by
  cases x with
  | heat =>
    obtain ⟨hi, hj⟩ := noteInvalid_rest v (s.su.heat.take v)
      (setSu { s.su with heat := s.su.heat.take v, history := historyTake v s.su.history } s)
    have l := lasts_heatAlarmStep v (h.of_same (by rw [hi]; rfl) (by rw [hi]; rfl) (by rw [hj]; rfl))
    rw [hi] at l
    exact l
  | opacity => exact .of_eq (by rw [takeSample, (noteInvalid_rest _ _ _).1]; rfl)
  | velocity => exact .of_eq (by rw [takeSample, (noteInvalid_rest _ _ _).1]; rfl)

theorem grows_commandEdge {act : State → State}
    (h : ∀ s, Grows s.iu.records (act s).iu.records) (s : State) :
    Grows s.iu.records (commandEdge act s).iu.records := by
  unfold commandEdge
  split
  · exact h (noteCommand s)
  · exact h (noteCommand s)
  · exact h (noteCommand s)
  · exact .refl _
  · exact .refl _

theorem maintReported_iu (v : Bool) (s : State) : (maintReported v s).iu = s.iu := by
  unfold maintReported
  split
  all_goals first | rfl | (split <;> rfl)

theorem lasts_inputActs (n : Input) {s : State} (h : Fresh s) :
    Lasts s.iu.records (inputActs n s).iu.records := by
  have lamp : (testConflictLamp s).iu = s.iu := by unfold testConflictLamp; split <;> rfl
  unfold inputActs
  split
  · exact lasts_alarmEvent h.capped.distinct h.next
  · exact (grows_commandEdge (grows_directionCommand _ _) s).lasting.stays
  · exact (grows_commandEdge (grows_directionCommand _ _) s).lasting.stays
  · exact (grows_commandEdge grows_standDown s).lasting.stays
  · exact .of_eq (by rw [maintReported_iu])
  · exact .of_eq (by rw [lamp])
  · exact .of_eq (by rw [lamp])
  · exact .of_eq rfl
  · exact .of_eq rfl

theorem lasts_dispatch (f : Octets) {s : State} (h : Fresh s) :
    Lasts s.iu.records (dispatch f s).iu.records := by
  unfold dispatch
  split
  · exact .of_eq rfl
  · split
    · exact .of_eq rfl
    · split
      · exact .of_eq rfl
      · dsimp only
        split
        · split
          · exact lasts_handOff h.capped h.chained f
          · exact lasts_handOff (s := refreshPeer (frameSource f) s) h.capped h.chained f
        · split
          · exact .of_eq rfl
          · exact .of_eq rfl

theorem lasts_taken {k : FrameKind} {s x : State} (h : Fresh s) (hx : taken k s = some x) :
    Lasts s.iu.records x.iu.records := by
  unfold taken at hx
  split at hx
  · cases hx
  · rename_i f fs _
    split at hx
    · cases hx
      exact lasts_dispatch f (s := setRx fs s) (h.of_same rfl rfl rfl)
    · cases hx

theorem paceUpdate_grows (s : State) : Grows s.iu.records (paceUpdate s).iu.records := by
  unfold paceUpdate
  split
  · exact .refl _
  · exact grows_writeDemand _ _ s

theorem removeYield_grows (id : Id) (s : State) : Grows s.iu.records (removeYield id s).iu.records := by
  refine grows_of_bare ?_
  simp only [removeYield, setRecords_iu_records, List.map_map]
  refine List.map_congr_left fun r _ => ?_
  simp only [Function.comp]
  split
  · rename_i hst
    split <;> simp [bare, hst]
  all_goals rfl

theorem endDefer_records (id : Id) (s : State) : (endDefer id s).iu.records = s.iu.records := by
  unfold endDefer
  split
  · rfl
  · split
    · unfold waitRate; split <;> rfl
    · rw [placeIncident_records]; rfl

theorem placeStatus_iu (s : State) : (placeStatus s).iu = s.iu := by unfold placeStatus; rw [place_iu]

theorem endSpacing_iu (s : State) : (endSpacing s).iu = s.iu := by
  unfold endSpacing
  dsimp only
  split
  · rw [placeStatus_iu]
  · rfl

theorem settle_iu (c : Claim) (s : State) : (settle c s).iu = s.iu := by
  unfold settle
  split
  · rfl
  · exact (lineRest_withdrawClaim c s).iu

theorem claimSent_iu (b : Body) (s : State) : (claimSent b s).iu = s.iu := by
  unfold claimSent
  split
  · split <;> rfl
  · rfl

theorem returnFrame_iu (f : TxFrame) (s : State) : (returnFrame f s).iu = s.iu := by
  unfold returnFrame
  split
  · exact (lineRest_refuseFrame _ s).iu
  · rfl

theorem collided_iu (f : TxFrame) (s : State) : (collided f s).iu = s.iu := by
  unfold collided
  split
  · rfl
  · split
    · rfl
    · split
      · rfl
      · split
        · split
          · rfl
          · exact returnFrame_iu f s
        · exact returnFrame_iu f s

theorem startSend_iu (s : State) : (startSend s).iu = s.iu := by
  unfold startSend
  split
  · rfl
  · dsimp only; split <;> rfl

theorem takeCharacter_iu (o : Octet) (b : Bool) (s : State) : (takeCharacter o b s).iu = s.iu := by
  unfold takeCharacter
  dsimp only
  split
  · rfl
  · rfl
  · unfold arriveFrame; dsimp only; split <;> rfl
  · rfl

theorem lampExpired_iu (l : Lamp) (s : State) : (lampExpired l s).iu = s.iu := by
  cases l with
  | conflict => simp only [lampExpired]; unfold testConflictLamp; split <;> rfl
  | accept => rfl
  | refused => rfl

theorem lasts_timed {due : Option Time} {body : State → State} {s x : State}
    (h : timed due body s = some x) (hb : ∀ s, Lasts s.iu.records (body s).iu.records) :
    Lasts s.iu.records x.iu.records := by
  obtain ⟨t, -, rfl⟩ := Option.map_eq_some_iff.1 h
  exact hb (reachTime t s)

theorem lasts_whenReady {ready : Bool} {body : State → State} {s x : State}
    (h : whenReady ready body s = some x) (hb : Lasts s.iu.records (body s).iu.records) :
    Lasts s.iu.records x.iu.records := by
  unfold whenReady at h
  split at h
  · cases h; exact hb
  · cases h

theorem lasts_characterEffect {ready : Bool} {o : Octet} {stop : Bool} {s x : State}
    (h : characterEffect ready o stop s = some x) : Lasts s.iu.records x.iu.records := by
  unfold characterEffect at h
  split at h
  · exact lasts_timed h fun s => .of_eq (by rw [startSend_iu])
  · exact lasts_whenReady h (.of_eq (by rw [takeCharacter_iu]))

/-- What the own effect of a command makes of the records held. -/
theorem lasts_effect {i : Instr} {s x : State} (f : Fresh s) (h : effect i s = some x) :
    Lasts s.iu.records x.iu.records := by
  cases i <;> simp only [effect] at h
  case sensorRound => exact lasts_timed h fun _ => .of_eq rfl
  case sensorSample a b c =>
    unfold sampleEffect at h
    split at h
    · cases h
    · rename_i t _
      obtain ⟨u, -, rfl⟩ := Option.map_eq_some_iff.1 h
      exact lasts_takeSample t.sensor _ (s := beginTransaction (nextSensor t.sensor) (reachTime u s))
        (f.of_same rfl rfl rfl)
  case debounceExpiry n =>
    obtain ⟨u, -, rfl⟩ := Option.map_eq_some_iff.1 h
    exact lasts_inputActs n (s := setSu (s.su.setInput n (inputTaken (s.su.input n))) (reachTime u s))
        (f.of_same rfl rfl rfl)
  case maintenanceEntry => exact lasts_whenReady h (.of_eq rfl)
  case slotInputFilterExpiry k n => exact lasts_timed h fun _ => .of_eq rfl
  case slotInputInitialLevels => exact lasts_timed h fun _ => .of_eq rfl
  case startTimerExpiry k => exact lasts_timed h fun _ => .of_eq rfl
  case coastTimerExpiry k => exact lasts_timed h fun _ => .of_eq rfl
  case tripHoldExpiry k => exact lasts_timed h fun _ => .of_eq rfl
  case paceUpdate => exact lasts_timed h fun s => (paceUpdate_grows s).lasting.stays
  case changeTimerExpiry => exact lasts_timed h fun _ => .of_eq rfl
  case yieldHoldExpiry id => exact lasts_timed h fun s => (removeYield_grows id s).lasting.stays
  case incidentReceived => exact lasts_taken f h
  case endReceived => exact lasts_taken f h
  case statusReceived => exact lasts_taken f h
  case claimReceived => exact lasts_taken f h
  case withdrawReceived => exact lasts_taken f h
  case releaseReceived => exact lasts_taken f h
  case invalidFrameTaken => exact lasts_taken f h
  case reannounce id => exact lasts_timed h fun s => .of_eq (endDefer_records id s)
  case endRepeat id => exact lasts_timed h fun s => .of_eq (placeEnd_records id _)
  case endingTimerExpiry id =>
    refine lasts_timed h fun s => fun i p q hp hq => ?_
    rw [setRecords_iu_records, held_filter_ne] at hq
    split at hq
    · cases hq
    · rw [hp] at hq; cases hq; exact .inl (.refl _)
  case peerSilent p => exact lasts_timed h fun s => (grows_grown (silencePeer p s)).lasting.stays
  case claimPlacement => exact lasts_whenReady h (.of_eq (by rw [testClaim_iu]))
  case claimSpacingExpiry => exact lasts_timed h fun _ => .of_eq rfl
  case settleExpiry =>
    unfold settleEffect at h
    split at h
    · exact lasts_timed h fun s => .of_eq (by rw [settle_iu])
    · cases h
    · cases h
  case claimRenewal =>
    unfold renewEffect at h
    split at h
    · exact lasts_timed h fun s => .of_eq (by rw [(lineRest_renewClaim _ s).iu])
    · cases h
    · cases h
  case claimEntryExpiry p => exact lasts_timed h fun _ => .of_eq rfl
  case presenceTimerExpiry => exact lasts_timed h fun s => .of_eq (by rw [placeStatus_iu])
  case statusSpacingExpiry => exact lasts_timed h fun s => .of_eq (by rw [endSpacing_iu])
  case healthFlagExpiry f => exact lasts_timed h fun _ => .of_eq rfl
  case sendStart => exact lasts_timed h fun s => .of_eq (by rw [startSend_iu])
  case sendSuccess =>
    unfold successEffect at h
    split at h
    · cases h
    · exact lasts_timed h fun s => .of_eq (by rw [claimSent_iu]; rfl)
  case collision k b =>
    unfold collisionEffect at h
    split at h
    · cases h
    · split at h
      · cases h
      · split at h
        · cases h
        · exact lasts_timed h fun s => .of_eq (by rw [collided_iu]; rfl)
  case receiverSync => exact lasts_timed h fun _ => .of_eq rfl
  case frameArrival o => exact lasts_characterEffect h
  case rxFrameDiscard o b => exact lasts_characterEffect h
  case rxTruncation => exact lasts_timed h fun _ => .of_eq rfl
  case cmdLampExpiry l => exact lasts_timed h fun s => .of_eq (by rw [lampExpired_iu])
  case slotFltPhase k => exact lasts_timed h fun _ => .of_eq rfl
  case characterReceived o b => exact lasts_characterEffect h
  all_goals cases h

theorem lasts_leaveJoining {s : State} (f : Fresh s) :
    Lasts s.iu.records (leaveJoining s).iu.records := by
  unfold leaveJoining
  dsimp only
  split <;> split
  · exact lasts_actOnAlarm (s := { s with
      sj := { s.sj with mode := _, joinDue := none }, iu := { s.iu with heldAlarm := false } })
      f.capped.distinct f.next
  · exact .of_eq rfl
  · exact lasts_actOnAlarm (s := { s with
      sj := { s.sj with mode := _, joinDue := none }, iu := { s.iu with heldAlarm := false } })
      f.capped.distinct f.next
  · exact .of_eq rfl

/-- What every command but a reset makes of the records held. -/
theorem lasts_answers {i : Instr} {s u : State} (f : Fresh s) (hi : isReset i = false)
    (h : Answers i s u) : Lasts s.iu.records u.iu.records := by
  cases h with
  | powerOn => cases hi
  | external => cases hi
  | release w _ _ => cases hi
  | level n v => exact .of_eq rfl
  | pin k n v p _ _ => exact .of_eq rfl
  | idle => exact .of_eq rfl
  | join t _ _ =>
    have hm : (maintAtJoin (joined t s)).iu = (joined t s).iu := by unfold maintAtJoin; split <;> rfl
    refine Lasts.grows ?_ (closes_closeEvent _ _).grows
    rw [hm]
    exact ((lasts_leaveJoining (s := reachTime t s) (f.of_same rfl rfl rfl)).grows (closes_follow _ _).grows).grows
      (closes_placeEarly _).grows
  | event _ _ x _ _ own => exact (lasts_effect f own).grows (closes_closeEvent s x).grows

/-- Settles O59: each operation on the list lets a record become only what it can (`Evolves`), and a record is
added only for an id that is not held, or that was evicted, ENDED, from a full list (`Lasting.add`). -/
theorem spansOnlyGrow : Obligations.SpansOnlyGrow := by
  intro i s u h hi hb hc hn r hr r' hr' hid
  have f : Fresh s := ⟨hb.capped, (chainsEnd_iff hb.capped).1 hc, hn⟩
  have answers := exec_answers h
  have hb' := (keepsForms_answers answers).bounded hb
  have key := lasts_answers f hi answers r.id r.st r'.st (held_of_mem hb.distinct hr)
    (hid ▸ held_of_mem hb'.distinct hr')
  have six : 6 ≤ s.iu.records.length → s.iu.records.length = 6 := fun x => Nat.le_antisymm hb.records x
  generalize r.st = p at key ⊢
  generalize r'.st = q at key ⊢
  rcases key with e | ⟨⟨n, t, rfl⟩, hl, ha⟩
  · cases e with
    | active lo hi => exact ⟨lo, hi⟩
    | absorbed o =>
      cases p with
      | ended n t => exact absurd rfl (o n t)
      | active c d => trivial
      | absorbed y => trivial
    | ended o =>
      cases p with
      | ended n t => exact absurd rfl (o n t)
      | active c d => trivial
      | absorbed y => trivial
    | still n t => exact fun _ => ⟨rfl, rfl⟩
  · cases q with
    | active c d => exact absurd rfl (ha c d)
    | absorbed y => exact six hl
    | ended m v => exact fun x => by omega

end Sys2Proof.Machine
end

section
/-! PROOFS. Two statements that a concrete state refutes (O28, O43). -/

namespace Sys2Proof.Machine

/-- Station 1 of a bore of 60, out of reset in this mode, its four slots not fitted. -/
def stationOne (m : Mode) : State :=
  { State.reset with sj := ⟨false, BitVec.ofNat 28 (1 + 128 * 60 + 1048576 * 3), 1#32, m, none⟩ }

/-! ## A notice for an id held twice (O28) -/

/-- Station 2's notice that 5/1 was absorbed into 3/0, over stations 4 to 9. -/
def noticeFrame : Octets :=
  [0x21#8, 2#8, 9#8, 5#8, 0x21#8, 4#8, 9#8, 0#8, 0#8, 0#8, 3#8, 0#8, 0#8, 0#8]

/-- The content that 5/1 is held ACTIVE with. -/
def heldContent : Content := ⟨5, 6, .towardA, 0, none⟩

/-- A list that holds 5/1 twice, ENDED before ACTIVE, and 3/0 ABSORBED into it, with the notice to take. -/
def heldTwice : State :=
  { stationOne .incident with
    iu := { State.reset.iu with records :=
      [⟨⟨5, 1#4⟩, .ended 0 0⟩, ⟨⟨5, 1#4⟩, .active heldContent none⟩, ⟨⟨3, 0#4⟩, .absorbed ⟨5, 1#4⟩⟩] }
    li := { State.reset.li with rx := [noticeFrame] } }

/-- The records a command leaves; none where it faults. -/
def recordsAfter : Outcome → List Rec
  | .next u => u.iu.records
  | .fault _ | .refused _ => []

/-- Refutes O28: in the last clause on a notice no premise has the ids distinct. `heldTwice` meets it, and the
model, which finds 5/1 ENDED first, answers with END and leaves the ACTIVE record's span. -/
theorem not_incidentReceivedIsAppliedOrAnswered : ¬ Obligations.IncidentReceivedIsAppliedOrAnswered := by
  rintro ⟨-, notice, -⟩
  obtain ⟨u, hu, -, -, -, -, -, -, -, -, -, loop⟩ :=
    notice heldTwice noticeFrame [] ⟨5, 1#4⟩ ⟨3, 0#4⟩ ⟨4, 9, .towardA, 0, none⟩ rfl (by decide +kernel)
      (by decide +kernel) (.inr rfl) (by rintro p ⟨⟩)
  have wanted := loop heldContent (by decide +kernel) (by decide +kernel) (by decide +kernel)
  have found : (recordsAfter (exec .incidentReceived heldTwice)).map bare =
      heldTwice.iu.records.map bare := by decide +kernel
  rw [hu] at found
  have other : (setContent heldTwice.iu.records ⟨5, 1#4⟩
      (merge heldContent ⟨4, 9, .towardA, 0, none⟩)).map bare ≠ heldTwice.iu.records.map bare := by
    decide +kernel
  exact other (wanted.symm.trans found)

/-! ## A flag that its own early STATUS raises again (O43) -/

/-- TX_CONGESTED runs out while 10 ENDs wait and the STATUS spacing timer is stopped. -/
def congested : State :=
  { stationOne .quiet with
    li := { State.reset.li with tx := (List.range 10).map fun n => ⟨.ending ⟨n + 1, 0#4⟩, 0⟩ }
    health := State.reset.health.set .txCongested (some 0) }

/-- What a STATUS reports and when the next may go, after a command. -/
structure Told where
  status : StatusPart
  health : BitVec 8
  ba : Ba
  deriving DecidableEq

/-- What stands to be told after a command that answers a next state. -/
def toldAfter : Outcome → Option Told
  | .next u => some ⟨ownStatus u, healthOctet u, u.ba⟩
  | .fault _ | .refused _ => none

/-- Refutes O43: in its last part nothing excludes an event that asks for an early STATUS whose own refusal
undoes the change. In `congested` TX_CONGESTED runs out, the STATUS it calls for finds 10 frames waiting, and
its refusal raises the flag again: what a STATUS reports is as it was, and the spacing timer has started. -/
theorem not_statusTimersPlaceAStatus : ¬ Obligations.StatusTimersPlaceAStatus := by
  rintro ⟨-, -, -, changes⟩
  obtain ⟨u, hu⟩ : ∃ u, exec (.healthFlagExpiry .txCongested) congested = .next u := ⟨_, rfl⟩
  have told : toldAfter (exec (.healthFlagExpiry .txCongested) congested) =
      some ⟨ownStatus congested, healthOctet congested, ⟨some 2000000, some 100000, true⟩⟩ := by
    decide +kernel
  rw [hu] at told
  obtain ⟨hst, hoct, hba⟩ := Told.mk.inj (Option.some.inj told)
  have heat : u.su = congested.su := by
    have k : (exec (.healthFlagExpiry .txCongested) congested) = .next u := hu
    rcases exec_effect_next rfl (by simp) k with ⟨-, rfl⟩ | ⟨x, hx, rfl⟩
    · rfl
    · cases hx; rw [(closes_closeEvent _ _).su]; rfl
  have mode : u.sj.mode = .quiet := congrArg (fun p => p.view.mode) hst
  have same := (changes _ _ _ hu rfl (by simp) (.inl mode)).2
    ⟨mode, congrArg (fun p => p.view.fans) hst, congrArg (fun p => p.view.runA) hst,
      congrArg (fun p => p.view.runB) hst, hoct, congrArg (fun p => p.gov) hst,
      congrArg (fun p => p.entries) hst, by rw [heat]⟩ (by simp) (by simp)
  rw [hba] at same
  cases congrArg Ba.spacingDue same

end Sys2Proof.Machine
end

section
/-! PROOFS. The resets (O3) and the timers of the flags, lamps and fault outputs (O44). -/

namespace Sys2Proof.Machine

/-! ## What a reset leaves -/

theorem holdReset_slot (keep : Bool) (s : State) (k : SlotNo) :
    (holdReset keep s).slot k = slotHeld keep (s.slot k) := by
  simp [holdReset, State.slot]

/-- A slot in reset keeps its pins, and its fault count and lockout where `keep` says so (R87). -/
theorem slotHeld_keeps (keep : Bool) (sl : Slot) :
    (slotHeld keep sl).faults = (if keep then sl.faults else 0) ∧
      lockoutOf (slotHeld keep sl) = (if keep then lockoutOf sl else none) ∧
      ∀ i, ((slotHeld keep sl).input i).pin = (sl.input i).pin := by
  refine ⟨?_, ?_, ?_⟩
  · cases keep <;> rfl
  · unfold slotHeld lockoutOf
    cases keep <;> cases sl.st <;> rfl
  · intro i; cases i <;> rfl

/-- No output is asserted while a reset holds the part (R164). -/
theorem pinsOf_holdReset (keep : Bool) (s : State) : pinsOf (holdReset keep s) =
    { drive := .all none, sign := none, smoke := false, incident := false, health := false,
      cmdAccept := false, cmdRefused := false, cmdConflict := false, slotFault := .all false,
      txEnable := false, txData := true, select := none, clock := false } := rfl

theorem inputReset_input (keep : Bool) (s : State) (i : Input) :
    (holdReset keep s).su.input i = ⟨(s.su.input i).pin, false, none⟩ := by cases i <;> rfl

/-- Settles O3: both resets are `holdReset`, whose result names every block, and `slotHeld_keeps` says what it
leaves of a slot. -/
theorem resetsClearTheBlocks : Obligations.ResetsClearTheBlocks := by
  intro s
  refine ⟨holdReset false s, holdReset true s, rfl, rfl, ?_, fun k => ?_, fun k => ?_⟩
  · rintro w hw
    obtain ⟨keep, rfl⟩ : ∃ keep, w = holdReset keep s := by
      rcases hw with rfl | rfl
      · exact ⟨false, rfl⟩
      · exact ⟨true, rfl⟩
    refine ⟨pinsOf_holdReset keep s, rfl, rfl, rfl, rfl, rfl, rfl, rfl, rfl, rfl, rfl, rfl, rfl, rfl, rfl,
      rfl, rfl, rfl, rfl, rfl, rfl, rfl, rfl, rfl, inputReset_input keep s, rfl, rfl, rfl, rfl, rfl, rfl,
      fun f => by cases f <;> rfl, rfl, fun k i => ?_⟩
    rw [holdReset_slot]
    exact (slotHeld_keeps keep (s.slot k)).2.2 i
  · obtain ⟨faults, lockout, -⟩ := slotHeld_keeps false (s.slot k)
    rw [holdReset_slot]
    exact ⟨faults, lockout⟩
  · obtain ⟨faults, lockout, -⟩ := slotHeld_keeps true (s.slot k)
    rw [holdReset_slot]
    exact ⟨faults, lockout⟩

/-! ## An early STATUS that finds room -/

/-- A frame that finds room changes the queue alone (R153). -/
theorem place_room (b : Body) (s : State) (hl : s.li.tx.length < 10) : ∃ q, place b s = setTx q s := by
  have hj (b : Body) : ∃ q, joinTail b s = setTx q s := ⟨_, joinTail_room b s hl⟩
  have hr (b : Body) (t : State) (ht : t = match replaceIn b s.li.tx with
      | some q => setTx q s
      | none => joinTail b s) : ∃ q, t = setTx q s := by
    subst ht
    split
    · exact ⟨_, rfl⟩
    · exact hj b
  unfold place
  split
  · exact ⟨s.li.tx, rfl⟩
  · split
    · split
      · exact ⟨_, rfl⟩
      · exact hj _
    all_goals exact hr _ _ rfl

/-- An early STATUS that finds room changes Bulletin Assembly and the queue alone (R143, R144). -/
theorem placeEarly_room (s : State) (hl : s.li.tx.length < 10) :
    ∃ q ba, placeEarly s = { s with li := { s.li with tx := q }, ba := ba } := by
  obtain ⟨q, hq⟩ := place_room (ownStatusBody s) { s with
    ba := { presenceDue := some (s.now + presencePeriod s.sj.mode),
            spacingDue := some (s.now + statusSpacingTime), early := false } } hl
  unfold placeEarly placeStatus
  rw [hq]
  dsimp only
  split
  · exact ⟨_, _, rfl⟩
  · exact ⟨_, _, rfl⟩

theorem requestEarly_room (b s : State) (hl : s.li.tx.length < 10) :
    ∃ q ba, requestEarly b s = { s with li := { s.li with tx := q }, ba := ba } := by
  unfold requestEarly
  split
  · split
    · exact ⟨_, _, rfl⟩
    · split
      · exact placeEarly_room s hl
      · exact ⟨s.li.tx, _, rfl⟩
  · exact ⟨_, _, rfl⟩

/-- Nothing follows an event that changes none of what follows, but for the health flags (R144). -/
theorem follow_inert {s u : State} (hs : Settled s) (h : Inert s { u with health := s.health }) :
    follow s u = u := by
  have hg : governing u = governing s := governing_congr (congrArg Sj.straps h.sj) h.records
  have mode : followList u = u := followList_settled (by
    have hm := hs.modeByList
    have hj : u.sj = s.sj := h.sj
    unfold ModeByList at *
    rw [hj, anyActive_congr (u := u) h.records]; exact hm)
  have plan : recomputeIfDue s u = u := by
    have ht : triggerOf s = triggerOf u := (triggerOf_inert h).trans rfl
    unfold recomputeIfDue
    split
    · rfl
    · rw [if_pos ⟨ht, yieldEnded_same hg⟩]
  have claim : followSlot u = u := by
    have := closeEvent_inert hs h
    refine ClaimStands.followSlot_eq ?_
    have st := settled_closeEvent s { u with health := s.health }
    rw [this] at st
    exact claimStands_congr (s := { u with health := s.health }) rfl rfl rfl st.claimStands
  have entry : enterIfReady u = u := by
    have hm : maintReady u = maintReady s := maintReady_congr (congrArg Sj.mode h.sj) h.slots h.entry
    unfold enterIfReady
    rw [hm, hs.noEntryDue]; rfl
  have test : testClaim u = u := by
    have hc := claimTest_none_of_inert h hs.noClaimDue
    have hc : claimTest u = none := hc
    unfold testClaim; rw [hc]
  unfold follow planned
  rw [mode, governingChanged_same hg, plan, claim, entry, test]
  exact followFlash_same h.slots

/-! ## The timers -/

/-- The lamps, and of the Sensing Unit all but the temperature class, are nothing that anything follows. -/
theorem inert_no {s : State} {su : Su} (t : Time) (no : No) (h : su.heat = s.su.heat) :
    Inert s { s with now := t, su := su, no := no } :=
  ⟨rfl, rfl, rfl, rfl, rfl, rfl, rfl, id, id, rfl, healthOctet_congr rfl rfl, by rw [h]⟩

/-- A health flag's timer runs out (R145). -/
theorem healthFlagExpiry_room {s : State} (f : TimedFlag) {t : Time} (hs : Settled s)
    (hd : s.health.get f = some t) (hl : s.li.tx.length < 10) :
    ∃ q ba, exec (.healthFlagExpiry f) s = .next { s with
      now := max s.now t, health := s.health.set f none, li := { s.li with tx := q }, ba := ba } := by
  obtain ⟨q, ba, h⟩ := requestEarly_room s { reachTime t s with health := s.health.set f none } hl
  refine ⟨q, ba, ?_⟩
  have hf : follow s { reachTime t s with health := s.health.set f none } =
      { reachTime t s with health := s.health.set f none } := 
    follow_inert hs ⟨rfl, rfl, rfl, rfl, rfl, rfl, rfl, id, id, rfl, healthOctet_congr rfl rfl, rfl⟩
  simp only [exec, execHealthFlagExpiry, hd, onTimer]
  unfold closeEvent
  simp only [reachTime_health]
  rw [hf, h]
  rfl

/-- The phases of a slot fault output, by its slot's state (R163). -/
theorem flashToggle_phase {st : SlotState} {lit : Bool} {len : Time} (now : Time) (due : Option Time)
    (h : st = .lockedOut .trip ∧ len = 500000 ∨ st = .lockedOut .stuck ∧ len = 125000 ∨
      (∃ x, st = .tripped x) ∧ len = (if lit then 1900000 else 100000)) :
    flashToggle now (patternOf st) ⟨lit, due⟩ = ⟨!lit, some (now + len)⟩ := by
  rcases h with ⟨rfl, rfl⟩ | ⟨rfl, rfl⟩ | ⟨⟨x, rfl⟩, rfl⟩
  · cases lit <;> rfl
  · cases lit <;> rfl
  · cases lit <;> rfl

/-- CMD_CONFLICT at its timer's expiry: it stays lit while a push input is asserted (R20, R162). -/
theorem lampExpired_conflict (s : State) : lampExpired .conflict s = { s with no := { s.no with
    conflict := ⟨s.no.conflict.lit && (s.su.pushA.level || s.su.pushB.level), none⟩ } } := by
  unfold lampExpired testConflictLamp pushReleased
  cases s.su.pushA.level <;> cases s.su.pushB.level <;> simp

theorem testConflictLamp_eq (s : State) : testConflictLamp s = { s with no := { s.no with
    conflict := if s.no.conflict.due = none ∧ pushReleased s = true then ⟨false, none⟩ else s.no.conflict } } := by
  unfold testConflictLamp
  split <;> rfl

/-- The debounced release of a push input puts the conflict lamp out where its timer is over and the other one
is released too (R20, R134). -/
theorem pushReleased_acts {s : State} {i j : Input}
    (hij : i = .pushA ∧ j = .pushB ∨ i = .pushB ∧ j = .pushA) (hp : (s.su.input i).pin = false) :
    inputActs i (setSu (s.su.setInput i (inputTaken (s.su.input i))) s) = { s with
      su := s.su.setInput i ⟨false, false, none⟩
      no := { s.no with conflict :=
        if s.no.conflict.due = none ∧ (s.su.input j).level = false then ⟨false, none⟩
        else s.no.conflict } } := by
  have taken : inputTaken (s.su.input i) = ⟨false, false, none⟩ := by unfold inputTaken; rw [hp]
  have acts : inputActs i (setSu (s.su.setInput i ⟨false, false, none⟩) s) =
      testConflictLamp (setSu (s.su.setInput i ⟨false, false, none⟩) s) := by
    rcases hij with ⟨rfl, -⟩ | ⟨rfl, -⟩ <;> rfl
  have released : pushReleased (setSu (s.su.setInput i ⟨false, false, none⟩) s) = true ↔
      (s.su.input j).level = false := by
    rcases hij with ⟨rfl, rfl⟩ | ⟨rfl, rfl⟩ <;> simp [pushReleased, setSu, Su.setInput, Su.input]
  rw [taken, acts, testConflictLamp_eq]
  simp only [released]
  rfl

/-- Settles O44: each timer's own effect touches the lamps, the outputs or the flags alone, after which nothing
follows but, for a flag, the early STATUS (`onTimer_inert`, `healthFlagExpiry_room`). -/
theorem flagLampAndFaultOutputTimers : Obligations.FlagLampAndFaultOutputTimers := by
  refine ⟨fun s f t hs hd hl => ?_, fun s t hs => ⟨fun hd => ?_, fun hd => ?_, fun hd => ?_⟩,
    fun s i j t hs hij hd hp => ?_, fun s k lit t len hs hd hst => ?_⟩
  · obtain ⟨q, ba, h⟩ := healthFlagExpiry_room f hs hd hl
    exact ⟨_, h, rfl, rfl, rfl, rfl, rfl, rfl, rfl, rfl, rfl, rfl⟩
  · exact onTimer_inert (body := lampExpired .accept) hd hs (inert_no _ _ rfl)
  · exact onTimer_inert (body := lampExpired .refused) hd hs (inert_no _ _ rfl)
  · have h := onTimer_inert (body := lampExpired .conflict) hd hs (by
      rw [lampExpired_conflict]; exact inert_no _ _ rfl)
    rw [lampExpired_conflict] at h
    exact h
  · have acts := pushReleased_acts (s := reachTime t s) hij hp
    have h := onTimer_inert (body := fun s => inputActs i (setSu (s.su.setInput i (inputTaken (s.su.input i))) s))
      hd hs (by
        rw [acts]
        exact inert_no _ _ (by rcases hij with ⟨rfl, -⟩ | ⟨rfl, -⟩ <;> rfl))
    rw [acts] at h
    exact h
  · have toggle := flashToggle_phase (lit := lit) (max s.now t) (some t) hst
    have hdue : (s.no.flash.get k).due = some t := by rw [hd]
    have h := onTimer_inert (body := fun s => { s with no := { s.no with
      flash := s.no.flash.set k (flashToggle s.now (patternOf (s.slot k).st) (s.no.flash.get k)) } })
      hdue hs (inert_no _ _ rfl)
    change exec (.slotFltPhase k) s = _ at h
    rw [h]
    have e : (reachTime t s).no.flash.get k = ⟨lit, some t⟩ := hd
    rw [e, ← toggle]
    rfl

end Sys2Proof.Machine
end

section
/-! PROOFS. Facts that the Incident Unit's statements share: the times held for ids, a frame taken from the head
of the receive queue, what closing an event keeps, and spans where no peer is SILENT or one record is held. -/

namespace Sys2Proof.Machine

/-! ## Times held for ids -/

theorem timeOf_append (l m : List IdTime) (id : Id) :
    timeOf (l ++ m) id = (timeOf l id).or (timeOf m id) := by
  unfold timeOf
  rw [List.find?_append]
  cases l.find? fun x => x.id == id <;> simp

@[simp] theorem timeOf_dropTime_self (l : List IdTime) (id : Id) : timeOf (dropTime l id) id = none := by
  unfold timeOf dropTime
  rw [Option.map_eq_none_iff, List.find?_eq_none]
  intro x hx
  simpa using (List.mem_filter.1 hx).2

theorem timeOf_dropTime_ne (l : List IdTime) {id x : Id} (h : id ≠ x) :
    timeOf (dropTime l x) id = timeOf l id := by
  unfold timeOf dropTime
  rw [List.find?_filter]
  congr 2
  funext y
  by_cases hy : y.id = id
  · simp [hy, h]
  · simp [hy]

@[simp] theorem timeOf_putTime_self (l : List IdTime) (id : Id) (t : Time) :
    timeOf (putTime l id t) id = some t := by
  unfold putTime
  rw [timeOf_append, timeOf_dropTime_self]
  simp [timeOf]

theorem timeOf_putTime_ne (l : List IdTime) {id x : Id} (t : Time) (h : id ≠ x) :
    timeOf (putTime l x t) id = timeOf l id := by
  unfold putTime
  rw [timeOf_append, timeOf_dropTime_ne l h]
  simp [timeOf, Ne.symm h]

@[simp] theorem timeOf_stampTime_self (l : List IdTime) (id : Id) (t : Time) :
    timeOf (stampTime l id t) id = some t := timeOf_putTime_self _ id t

/-- A time that an id holds goes with the ids that are dropped. -/
theorem timeOf_filter_gone {l : List IdTime} {gone : Id → Bool} {id : Id} (h : gone id = true) :
    timeOf (l.filter fun x => !gone x.id) id = none := by
  unfold timeOf
  rw [Option.map_eq_none_iff, List.find?_eq_none]
  intro x hx e
  have e : x.id = id := by simpa using e
  have := (List.mem_filter.1 hx).2
  rw [e, h] at this
  cases this

/-! ## A frame taken from the head of the queue (R146, R147) -/

/-- The sender of a frame is heard, unless it is the station itself (R109). -/
def heardFrom (f : Octets) (s : State) : State :=
  if frameSource f = s.station then s else refreshPeer (frameSource f) s

/-- What a frame that has been taken finds. -/
def takenFrom (f : Octets) (fs : List Octets) (s : State) : State := heardFrom f (setRx fs s)

/-- Taking a frame leaves all but the receive queue and the Peer Table. -/
theorem takenFrom_rest (f : Octets) (fs : List Octets) (s : State) :
    takenFrom f fs s = { s with li := { s.li with rx := fs }, pt := (takenFrom f fs s).pt } := by
  unfold takenFrom heardFrom
  split <;> rfl

@[simp] theorem takenFrom_iu (f : Octets) (fs : List Octets) (s : State) :
    (takenFrom f fs s).iu = s.iu := by rw [takenFrom_rest]
@[simp] theorem takenFrom_now (f : Octets) (fs : List Octets) (s : State) :
    (takenFrom f fs s).now = s.now := by rw [takenFrom_rest]
@[simp] theorem takenFrom_sj (f : Octets) (fs : List Octets) (s : State) :
    (takenFrom f fs s).sj = s.sj := by rw [takenFrom_rest]
@[simp] theorem takenFrom_station (f : Octets) (fs : List Octets) (s : State) :
    (takenFrom f fs s).station = s.station := by unfold State.station; rw [takenFrom_sj]
@[simp] theorem takenFrom_count (f : Octets) (fs : List Octets) (s : State) :
    (takenFrom f fs s).count = s.count := by unfold State.count; rw [takenFrom_sj]
@[simp] theorem takenFrom_su (f : Octets) (fs : List Octets) (s : State) :
    (takenFrom f fs s).su = s.su := by rw [takenFrom_rest]
@[simp] theorem takenFrom_rx (f : Octets) (fs : List Octets) (s : State) :
    (takenFrom f fs s).li.rx = fs := by rw [takenFrom_rest]
@[simp] theorem takenFrom_tx (f : Octets) (fs : List Octets) (s : State) :
    (takenFrom f fs s).li.tx = s.li.tx := by rw [takenFrom_rest]

theorem takenFrom_pt {f : Octets} (fs : List Octets) {s : State} (h : frameSource f ≠ s.station) :
    (takenFrom f fs s).pt = putPeer { peerOf s.pt (frameSource f) with
      index := frameSource f, liveness := .live s.now } s.pt := by
  have h : frameSource f ≠ (setRx fs s).station := h
  unfold takenFrom heardFrom
  rw [if_neg h]; rfl

/-- A frame taken for a kind has that kind, a station's source and, where it is fixed, its length (R147). -/
theorem classify_valid {n : Nat} {f : Octets} {k : FrameKind} (h : classify n f = k) (hk : k ≠ .invalid) :
    kindOf f = k ∧ sourceOk n f = true ∧ fixedLengthOk f = true := by
  unfold classify at h
  split at h
  · rename_i hc
    rw [Bool.and_eq_true] at hc
    exact ⟨h, hc.1, hc.2⟩
  · exact absurd h.symm hk

/-- Outside CONFIG_FAULT a good frame at the head of the queue is handed to its block (R147). -/
theorem takeFrame_handOff {s : State} {f : Octets} {fs : List Octets} {k : FrameKind}
    (hrx : s.li.rx = f :: fs) (hc : classify s.count f = k) (hk : k ≠ .invalid)
    (hm : s.sj.mode ≠ .configFault) :
    takeFrame k s = .next (closeEvent s (handOff f (takenFrom f fs s))) := by
  obtain ⟨h1, h2, h3⟩ := classify_valid hc hk
  have hd : dispatch f (setRx fs s) = handOff f (takenFrom f fs s) := by
    have hs : sourceOk (setRx fs s).count f = true := h2
    unfold dispatch
    rw [if_neg (by simpa using hm), if_neg (by rw [h1]; exact hk), if_neg (by simp [hs]), if_pos h3]
    rfl
  unfold takeFrame
  rw [hrx]
  simp only [hc, if_true]
  rw [hd]

theorem handOff_incident {f : Octets} (s : State) (h : kindOf f = .incident) :
    handOff f s = receiveIncident (frameBody f) s := by unfold handOff; rw [h]

theorem handOff_ending {f : Octets} (s : State) (h : kindOf f = .ending) :
    handOff f s = receiveEnding (frameBody f) s := by unfold handOff; rw [h]

theorem handOff_status {f : Octets} (s : State) (h : kindOf f = .status) :
    handOff f s = receiveStatus (frameSource f) (frameBody f) s := by unfold handOff; rw [h]

theorem incidentReceived_next {s : State} {f : Octets} {fs : List Octets} (hrx : s.li.rx = f :: fs)
    (hc : classify s.count f = .incident) (hm : s.sj.mode ≠ .configFault) : exec .incidentReceived s =
      .next (closeEvent s (receiveIncident (frameBody f) (takenFrom f fs s))) := by
  have h := takeFrame_handOff hrx hc (by simp) hm
  rwa [handOff_incident _ (classify_valid hc (by simp)).1] at h

/-! ## What closing an event keeps -/

theorem Closes.iu_eq {s t : State} (h : Closes s t) : t.iu.reannounce = s.iu.reannounce ∧
    t.iu.endRepeats = s.iu.endRepeats ∧ t.iu.endSent = s.iu.endSent ∧ t.iu.counter = s.iu.counter ∧
    t.iu.incidentSent = s.iu.incidentSent ∧ t.iu.endings = s.iu.endings := by
  rw [h.iu]; exact ⟨rfl, rfl, rfl, rfl, rfl, rfl⟩

/-- A record that is not ACTIVE stands as it was through the closing. -/
theorem mem_of_bare {rs qs : List Rec} (h : qs.map bare = rs.map bare) {r : Rec} (hr : r ∈ rs)
    (hn : ∀ c d, r.st ≠ .active c d) : r ∈ qs := by
  have : bare r ∈ qs.map bare := h ▸ List.mem_map_of_mem hr
  obtain ⟨q, hq, e⟩ := List.mem_map.1 this
  have hb : bare r = r := by unfold bare; split <;> first | rfl | exact absurd ‹_› (hn _ _)
  have : q = r := by
    rw [hb] at e
    unfold bare at e
    split at e
    · rw [← e] at hn; exact absurd rfl (hn _ _)
    · exact e
    · exact e
  exact this ▸ hq

/-- A frame that is none of the Claim Unit's stays when a frame of another class is placed (R153). -/
theorem place_keeps_class {b : Body} {s : State} {f : TxFrame} (hb : bodyClass b ≠ bodyClass f.body)
    (hf : f ∈ s.li.tx) (h1 : bodyClass f.body ≠ 1) : f ∈ (place b s).li.tx := by
  refine place_keeps b s f hf ?_ ?_
  · cases ht : takesPlaceOf b f.body with
    | false => rfl
    | true => exact absurd (takesPlaceOf_class ht) hb
  · cases hn : claimNumber f.body with
    | none => rfl
    | some n => exact absurd (class_of_claim hn) h1

theorem followSlot_keeps {s : State} {f : TxFrame} (hf : f ∈ s.li.tx) (h1 : bodyClass f.body ≠ 1) :
    f ∈ (followSlot s).li.tx := by
  unfold followSlot
  split
  · split
    · exact hf
    · exact place_keeps_class h1.symm hf h1
  · split
    · exact hf
    · exact place_keeps_class h1.symm hf h1
  · exact hf

theorem planned_keeps (b : State) {s : State} {f : TxFrame} (hf : f ∈ s.li.tx)
    (h1 : bodyClass f.body ≠ 1) : f ∈ (planned b s).li.tx :=
  followSlot_keeps (s := recomputeIfDue b s) (by rwa [recomputeIfDue_tx]) h1

/-- What follows an event takes no frame from the queue but the Claim Unit's (R153). -/
theorem follow_keeps (b : State) {s : State} {f : TxFrame} (hf : f ∈ s.li.tx)
    (hc : bodyClass f.body ≠ 1) : f ∈ (follow b s).li.tx := by
  have h1 : f ∈ (governingChanged b (followList s)).li.tx := by
    rw [governingChanged_li]
    unfold followList
    split <;> exact hf
  have h2 := planned_keeps b h1 hc
  have h3 : f ∈ (enterIfReady (planned b (governingChanged b (followList s)))).li.tx := by
    unfold enterIfReady
    split
    · exact planned_keeps _ h2 hc
    · exact h2
  change f ∈ (testClaim _).li.tx
  unfold testClaim
  split
  · exact h3
  · exact place_keeps_class hc.symm h3 hc

theorem placeStatus_keeps {s : State} {f : TxFrame} (hf : f ∈ s.li.tx) (h0 : bodyClass f.body = 0) :
    f ∈ (placeStatus s).li.tx := place_keeps_class (by rw [h0]; simp [ownStatusBody, bodyClass]) hf (by simp [h0])

theorem placeEarly_keeps {s : State} {f : TxFrame} (hf : f ∈ s.li.tx) (h0 : bodyClass f.body = 0) :
    f ∈ (placeEarly s).li.tx := by
  unfold placeEarly
  dsimp only
  split <;> exact placeStatus_keeps hf h0

/-- What closes an event takes no INCIDENT and no END from the queue (R153). -/
theorem closeEvent_keeps (b : State) {s : State} {f : TxFrame} (hf : f ∈ s.li.tx)
    (h0 : bodyClass f.body = 0) : f ∈ (closeEvent b s).li.tx := by
  have hk := follow_keeps b hf (by simp [h0])
  unfold closeEvent requestEarly
  split
  · split
    · exact hk
    · split
      · exact placeEarly_keeps hk h0
      · exact hk
  · exact hk

/-! ## Where no peer is SILENT -/

/-- No peer is SILENT. -/
def NoneSilent (s : State) : Prop := ∀ p ∈ s.pt, p.liveness ≠ .silent

theorem peerOf_cases (pt : List Peer) (p : Nat) :
    peerOf pt p ∈ pt ∨ peerOf pt p = ⟨p, .unknown, none, false⟩ := by
  unfold peerOf
  cases h : pt.find? fun x => x.index == p with
  | none => exact .inr rfl
  | some x => exact .inl (List.mem_of_find?_eq_some h)

theorem mem_putPeer {p x : Peer} {pt : List Peer} (h : x ∈ putPeer p pt) : x = p ∨ x ∈ pt := by
  induction pt with
  | nil => exact .inl (by simpa [putPeer] using h)
  | cons y ys ih =>
    unfold putPeer at h
    split at h
    · simpa using h
    · split at h
      · rcases List.mem_cons.1 h with h | h
        · exact .inl h
        · exact .inr (List.mem_cons_of_mem _ h)
      · rcases List.mem_cons.1 h with rfl | h
        · exact .inr List.mem_cons_self
        · exact (ih h).imp_right (List.mem_cons_of_mem _)

theorem NoneSilent.takenFrom {s : State} (h : NoneSilent s) (f : Octets) (fs : List Octets) :
    NoneSilent (takenFrom f fs s) := by
  unfold Machine.takenFrom heardFrom
  split
  · exact h
  · intro x hx
    rcases mem_putPeer hx with rfl | hx
    · simp
    · exact h x hx

/-- Without a SILENT peer no station is taken for burnt (R11). -/
theorem NoneSilent.isBurnt {s : State} (h : NoneSilent s) (p : Nat) : isBurnt s p = false := by
  have hp : (peerOf s.pt p).liveness ≠ .silent := by
    rcases peerOf_cases s.pt p with hm | hm
    · exact h _ hm
    · rw [hm]; simp
  unfold Machine.isBurnt
  split
  · rename_i hs _; exact absurd hs hp
  · rfl

theorem burntSpan_self {s : State} {c : Content} (hl : isBurnt s (c.lo - 1) = false)
    (hh : isBurnt s (c.hi + 1) = false) : burntSpan s c = c := by
  simp [burntSpan, hl, hh]

theorem spanGrew_self (c : Content) : spanGrew c c = false := by simp [spanGrew]

theorem NoneSilent.burntRecs {s : State} (h : NoneSilent s) : burntRecs s = [] := by
  unfold Machine.burntRecs
  rw [List.filter_eq_nil_iff]
  intro a _
  rw [burntSpan_self (h.isBurnt _) (h.isBurnt _), spanGrew_self]
  simp

/-! ## Settled spans -/

/-- Where no two ACTIVE spans meet and no burnt station is next to one, the spans stand (R11, R16). -/
theorem settleSpans_stands {n : Nat} {s : State} (hp : firstPair s.iu.records = none)
    (hb : burntRecs s = []) : settleSpans n s = s := by
  cases n with
  | zero => rfl
  | succ n => unfold settleSpans; rw [hp]; simp [hb]

theorem grown_stands {s : State} (hp : firstPair s.iu.records = none) (hb : burntRecs s = []) :
    grown s = s := settleSpans_stands hp hb

/-- No two ACTIVE spans meet where one record at most is ACTIVE. -/
theorem firstPair_none {rs : List Rec} (h : meetingPairs rs = []) : firstPair rs = none := by
  unfold firstPair lowestKey
  rw [h]
  rfl

theorem meetingPairs_single {rs : List Rec} {a : Id × Content} (h : actives rs = [a]) :
    meetingPairs rs = [] := by
  rw [List.eq_nil_iff_forall_not_mem]
  intro p hp
  obtain ⟨x, hx, y, hy, hk, -⟩ := mem_meetingPairs.1 hp
  rw [h, List.mem_singleton] at hx hy
  rw [hx, hy, keyLt_self] at hk
  cases hk

/-! ## One ACTIVE record -/

theorem resolvedContent_of_held {rs : List Rec} {id : Id} {c : Content} {d : Option Demand}
    (h : held rs id = some (.active c d)) : resolvedContent rs id = some c := by
  have hf := held_eq_some.1 h
  unfold resolvedContent
  rw [resolve_self hf (by simp)]
  rfl

theorem triggerReannounce_pending {id : Id} {s : State} {c : Content}
    (h : resolvedContent s.iu.records id = some c) :
    (timeOf (triggerReannounce id s).iu.reannounce id).isSome = true := by
  unfold triggerReannounce
  rw [h]
  cases ht : timeOf s.iu.reannounce id with
  | none => simp
  | some t => simp [ht]

theorem actives_cons (r : Rec) (rs : List Rec) : actives (r :: rs) =
    match contentOf r with
    | some c => (r.id, c) :: actives rs
    | none => actives rs := by
  unfold actives
  rw [List.filterMap_cons]
  cases contentOf r <;> rfl

@[simp] theorem actives_active (id : Id) (c : Content) (d : Option Demand) (rs : List Rec) :
    actives (⟨id, .active c d⟩ :: rs) = (id, c) :: actives rs := by rw [actives_cons]; rfl
@[simp] theorem actives_absorbed (id y : Id) (rs : List Rec) :
    actives (⟨id, .absorbed y⟩ :: rs) = actives rs := by rw [actives_cons]; rfl
@[simp] theorem actives_ended (id : Id) (n : Nat) (t : Time) (rs : List Rec) :
    actives (⟨id, .ended n t⟩ :: rs) = actives rs := by rw [actives_cons]; rfl
@[simp] theorem actives_nil : actives [] = [] := rfl

/-- The one ACTIVE record governs (R18). -/
theorem governing_single {s : State} {id : Id} {c : Content} {d : Option Demand}
    (h : s.iu.records = [⟨id, .active c d⟩]) : governing s = some ⟨id, c, d⟩ := by
  have ha : actives s.iu.records = [(id, c)] := by rw [h]; rfl
  obtain ⟨g, hg⟩ := Option.isSome_iff_exists.1
    (governingOf_isSome (p := s.station) (rs := s.iu.records) (by rw [ha]; simp))
  obtain ⟨c', hm, -⟩ := governingOf_mem hg
  rw [ha, List.mem_singleton] at hm
  cases hm
  unfold governing
  rw [hg, h]
  simp [findRec]

end Sys2Proof.Machine
end

section
/-! PROOFS. The direction command (O11), the stand-down (O12), the END received and the ending timer (O29). -/

namespace Sys2Proof.Machine

/-! ## Commands at the niche -/

theorem commandEdge_acts {s : State} (act : State → State)
    (hm : s.sj.mode = .quiet ∨ s.sj.mode = .incident ∨ s.sj.mode = .maintenance) :
    commandEdge act s = act (noteCommand s) := by
  unfold commandEdge
  split
  · rfl
  · rfl
  · rfl
  · next h => simp [h] at hm
  · next h => simp [h] at hm

/-- The debounced assertion of an input acts, and what follows it closes the event (R133, R134). -/
theorem debounceExpiry_next {s : State} {n : Input} {t : Time} (hd : (s.su.input n).due = some t) :
    exec (.debounceExpiry n) s = .next (closeEvent s (inputActs n
      (setSu (s.su.setInput n (inputTaken (s.su.input n))) (reachTime t s)))) := by
  have h := onTimer_closes (fun s => inputActs n (setSu (s.su.setInput n (inputTaken (s.su.input n))) s)) s hd
  obtain ⟨u, hu, he, -⟩ := h
  exact hu.trans (congrArg _ he)

theorem setInput_input (u : Su) (n : Input) (d : Debounced) : (u.setInput n d).input n = d := by
  cases n <;> rfl

/-- A direction command that is accepted (R19, R162). -/
theorem directionCommand_accepted {d : Direction} {s : State} {g : Governing}
    (hg : governing s = some g) (hr : g.content.rev < 15) : directionCommand d false s =
      lightAccept (triggerReannounce g.id (setRecords (setContent s.iu.records g.id
        { g.content with dir := d, rev := g.content.rev + 1, cmd := some s.station }) s)) := by
  unfold directionCommand
  rw [hg]
  exact if_pos ⟨hr, rfl⟩

/-- A direction command that is refused (R19, R162). -/
theorem directionCommand_refused {d : Direction} {o : Bool} {s : State}
    (h : governing s = none ∨ (∃ g, governing s = some g ∧ 15 ≤ g.content.rev) ∨ o = true) :
    directionCommand d o s = lightRefused s := by
  unfold directionCommand
  cases hg : governing s with
  | none => rfl
  | some g =>
    refine if_neg fun ⟨hr, ho⟩ => ?_
    rcases h with h | ⟨g', h, h15⟩ | h
    · rw [hg] at h; cases h
    · rw [hg] at h; cases h; omega
    · rw [h] at ho; cases ho

/-- A direction, its push input and the other push input. -/
def PushOf (d : Direction) (i j : Input) : Prop :=
  d = .towardA ∧ i = .pushA ∧ j = .pushB ∨ d = .towardB ∧ i = .pushB ∧ j = .pushA

/-- What a push input's debounced assertion hands on (R19, R134). -/
theorem push_acts {s : State} {d : Direction} {i j : Input} {t : Time} (hij : PushOf d i j)
    (hp : (s.su.input i).pin = true)
    (hm : s.sj.mode = .quiet ∨ s.sj.mode = .incident ∨ s.sj.mode = .maintenance) :
    ∃ su, inputActs i (setSu (s.su.setInput i (inputTaken (s.su.input i))) (reachTime t s)) =
      directionCommand d (s.su.input j).level (noteCommand (setSu su (reachTime t s))) := by
  refine ⟨s.su.setInput i (inputTaken (s.su.input i)), ?_⟩
  have act := commandEdge_acts (s := setSu (s.su.setInput i (inputTaken (s.su.input i))) (reachTime t s))
    (directionCommand d (s.su.input j).level) hm
  rw [← act]
  have hl : ((setSu (s.su.setInput i (inputTaken (s.su.input i))) (reachTime t s)).su.input i).level =
      true := by rw [setSu_su, setInput_input]; exact hp
  unfold inputActs
  rw [hl]
  rcases hij with ⟨rfl, rfl, rfl⟩ | ⟨rfl, rfl, rfl⟩
  · exact rfl
  · exact rfl

/-- Settles O11: the command acts on the record that governs (`directionCommand_accepted`, `_refused`), and the
closing leaves the list but for demand parts, the re-announces and the lamps. -/
theorem directionCommandIsAcceptedOrRefused : Obligations.DirectionCommandIsAcceptedOrRefused := by
  intro s d t i j hd hp hm
  obtain ⟨su, acts⟩ := push_acts (d := d) (j := j) (t := t)
    (by cases d <;> simp [PushOf, i, j]) hp hm
  have h := debounceExpiry_next hd
  rw [acts] at h
  have k := closes_closeEvent s (directionCommand d (s.su.input j).level
    (noteCommand (setSu su (reachTime t s))))
  have hg : governing (noteCommand (setSu su (reachTime t s))) = governing s := rfl
  refine ⟨_, h, ?_, fun g hgov hrev hj => ?_, fun hr => ?_⟩
  · rw [k.commanded]
    unfold directionCommand
    split
    · rfl
    · split
      · exact (iuRest_triggerReannounce _ _).commanded
      · rfl
  · rw [hj, directionCommand_accepted (hg.trans hgov) hrev] at k ⊢
    refine ⟨by rw [k.bare]; simp; rfl, ?_, k.accept.trans ?_, k.refused⟩
    swap
    · rw [lightAccept_no_acceptDue, (iuRest_triggerReannounce _ _).now]
      exact rfl
    rw [k.iu_eq.1]
    refine triggerReannounce_pending (c := { g.content with
      dir := d, rev := g.content.rev + 1, cmd := some s.station }) ?_
    refine resolvedContent_of_held (d := g.demand) ?_
    change held (setContent s.iu.records g.id _) g.id = _
    rw [held_setContent, governing_active hgov, Option.map_some, if_pos rfl]
    rfl
  · rw [directionCommand_refused (by rwa [hg])] at k ⊢
    exact ⟨k.bare, k.iu_eq.1, k.refused, k.accept⟩

/-! ## The stand-down -/

theorem standDown_none {s : State} (h : governing s = none) : standDown s = lightRefused s := by
  unfold standDown; rw [h]

/-- A stand-down of the governing incident (R21). -/
theorem standDown_some {s : State} {g : Governing} (h : governing s = some g) : standDown s =
    lightAccept { placeEnd g.id (endChain g.id s) with iu := { (placeEnd g.id (endChain g.id s)).iu with
      endRepeats := s.iu.endRepeats ++
        [⟨g.id, s.now + 500000⟩, ⟨g.id, s.now + 1000000⟩] } } := by
  unfold standDown
  rw [h]
  have hr : (placeEnd g.id (endChain g.id s)).iu.endRepeats = s.iu.endRepeats := by
    rw [(iuRest_placeEnd g.id _).repeats, (iuRest_endChain g.id s).repeats]
  have hn : (placeEnd g.id (endChain g.id s)).now = s.now := by
    rw [(iuRest_placeEnd g.id _).now, (iuRest_endChain g.id s).now]
  dsimp only
  rw [hr, hn]
  rfl

theorem endChain_reannounce (g : Id) (s : State) {r : Rec} (hr : r ∈ s.iu.records)
    (h : resolvesTo s.iu.records g r.id = true) :
    timeOf (endChain g s).iu.reannounce r.id = none := by
  have gone : ((s.iu.records.filter fun r => resolvesTo s.iu.records g r.id).map Rec.id).contains r.id =
      true := List.contains_iff_mem.2 (List.mem_map.2 ⟨r, List.mem_filter.2 ⟨hr, h⟩, rfl⟩)
  exact timeOf_filter_gone (l := s.iu.reannounce) gone

theorem placeEnd_iu (id : Id) (s : State) : (placeEnd id s).iu =
    { s.iu with endSent := stampTime s.iu.endSent id s.now } := by
  unfold placeEnd; rw [place_iu]

/-- An END that is placed waits where there was room (R153). -/
theorem placeEnd_has (id : Id) {s : State} (hm : s.sj.mode ≠ .configFault)
    (hl : s.li.tx.length < 10) : ∃ f ∈ (placeEnd id s).li.tx, f.body = .ending id :=
  place_has (.ending id) { s with iu := { s.iu with endSent := stampTime s.iu.endSent id s.now } } hm hl
    (by simp)

/-- Settles O12: the stand-down ends the chain of the record that governs (`endChain_records`) and places END;
the closing leaves ENDED records, frames of class 0, the repeats and the lamps. -/
theorem standDownEndsTheChain : Obligations.StandDownEndsTheChain := by
  intro s t hd hp hm
  have h := debounceExpiry_next (n := .standDown) hd
  have acts : inputActs .standDown (setSu (s.su.setInput .standDown
      (inputTaken (s.su.input .standDown))) (reachTime t s)) =
      standDown (noteCommand (setSu (s.su.setInput .standDown
        (inputTaken (s.su.input .standDown))) (reachTime t s))) := by
    have e := commandEdge_acts (s := setSu (s.su.setInput .standDown
      (inputTaken (s.su.input .standDown))) (reachTime t s)) standDown hm
    rw [← e]
    have hl : ((s.su.setInput .standDown (inputTaken (s.su.input .standDown))).input
      .standDown).level = true := hp
    unfold inputActs
    simp only [setSu_su, hl]
  rw [acts] at h
  generalize hsu : s.su.setInput .standDown (inputTaken (s.su.input .standDown)) = su at h
  have k := closes_closeEvent s (standDown (noteCommand (setSu su (reachTime t s))))
  have hg : governing (noteCommand (setSu su (reachTime t s))) = governing s := rfl
  refine ⟨_, h, ?_, fun g hgov => ?_, fun hn => ?_⟩
  · rw [k.commanded]
    cases hgov : governing s with
    | none => rw [standDown_none (hg.trans hgov)]; rfl
    | some g =>
      rw [standDown_some (hg.trans hgov)]
      simp only [lightAccept]
      rw [(iuRest_placeEnd g.id _).commanded, (iuRest_endChain g.id _).commanded]
      rfl
  · rw [standDown_some (hg.trans hgov)] at k ⊢
    generalize hz : noteCommand (setSu su (reachTime t s)) = z at k ⊢
    have hzr : z.iu = s.iu := by rw [← hz]; rfl
    have hzn : z.now = max s.now t := by rw [← hz]; rfl
    have hzm : z.sj = s.sj := by rw [← hz]; rfl
    have hzt : z.li.tx = s.li.tx := by rw [← hz]; rfl
    have records : (closeEvent s (lightAccept { placeEnd g.id (endChain g.id z) with
        iu := { (placeEnd g.id (endChain g.id z)).iu with endRepeats := z.iu.endRepeats ++
          [⟨g.id, z.now + 500000⟩, ⟨g.id, z.now + 1000000⟩] } })).iu.records.map bare =
        (s.iu.records.map fun r => ⟨r.id, if resolvesTo s.iu.records g.id r.id
          then .ended s.iu.endings (max s.now t + 60000000) else r.st⟩).map bare := by
      rw [k.bare]
      change (placeEnd g.id (endChain g.id z)).iu.records.map bare = _
      rw [placeEnd_records, endChain_records, hzr, hzn]
      rfl
    refine ⟨fun r hr hres => ⟨?_, ?_⟩, fun r hr hres => ?_, ?_, fun hl => ?_, ?_, ?_, k.refused⟩
    · refine mem_of_bare records (List.mem_map.2 ⟨r, hr, ?_⟩) (by simp)
      rw [if_pos (resolvesTo_iff.2 hres)]
    · rw [k.iu_eq.1]
      change timeOf (placeEnd g.id (endChain g.id z)).iu.reannounce r.id = none
      rw [placeEnd_iu]
      exact endChain_reannounce g.id z (by rw [hzr]; exact hr) (by rw [hzr]; exact resolvesTo_iff.2 hres)
    · rw [records]
      refine List.mem_map_of_mem (List.mem_map.2 ⟨r, hr, ?_⟩)
      rw [if_neg fun x => hres (resolvesTo_iff.1 x)]
    · rw [ids_of_bare records, map_ids fun i st => if resolvesTo s.iu.records g.id i
        then .ended s.iu.endings (max s.now t + 60000000) else st]
    · have hmode : (endChain g.id z).sj.mode ≠ .configFault := by
        change z.sj.mode ≠ _
        rw [hzm]
        rcases hm with e | e | e <;> rw [e] <;> simp
      obtain ⟨f, hf, hb⟩ := placeEnd_has g.id hmode (by change z.li.tx.length < 10; rw [hzt]; exact hl)
      exact ⟨f, closeEvent_keeps s hf (by rw [hb]; rfl), hb⟩
    · rw [k.iu_eq.2.1]
      change z.iu.endRepeats ++ [⟨g.id, z.now + 500000⟩, ⟨g.id, z.now + 1000000⟩] = _
      rw [hzr, hzn]
    · rw [k.accept]
      change some ((placeEnd g.id (endChain g.id z)).now + 2000000) = _
      rw [(iuRest_placeEnd g.id _).now, (iuRest_endChain g.id z).now, hzn]
  · rw [standDown_none (hg.trans hn)] at k ⊢
    exact ⟨k.bare, k.iu_eq.2.1, k.refused, k.accept⟩

/-! ## An END received -/

theorem addRec_new {rs : List Rec} {r : Rec} (h : findRec rs r.id = none) : addRec rs r = rs ++ [r] := by
  unfold addRec
  congr 1
  rw [List.filter_eq_self]
  intro x hx
  simpa using findRec_eq_none.1 h x hx

@[simp] theorem bare_ended (id : Id) (n : Nat) (t : Time) : bare ⟨id, .ended n t⟩ = ⟨id, .ended n t⟩ := rfl
@[simp] theorem bare_absorbed (id y : Id) : bare ⟨id, .absorbed y⟩ = ⟨id, .absorbed y⟩ := rfl
@[simp] theorem bare_active (id : Id) (c : Content) (d : Option Demand) :
    bare ⟨id, .active c d⟩ = ⟨id, .active c none⟩ := rfl

theorem catchUp_endings (id : Id) (s : State) : (catchUp id s).iu.endings = s.iu.endings := by
  unfold catchUp; split <;> rfl

/-- What an END makes of the list (R22). -/
theorem receiveEnd_records (id : Id) (s : State) :
    (∀ g, resolve s.iu.records id = some g → isEnded g = false →
      (receiveEnd id s).iu.records.map bare = s.iu.records.map (fun r =>
        if (resolve s.iu.records r.id).map Rec.id = some g.id
        then ⟨r.id, .ended s.iu.endings (s.now + 60000000)⟩ else bare r)) ∧
    (∀ g, resolve s.iu.records id = some g → isEnded g = true → receiveEnd id s = s) ∧
    (findRec s.iu.records id = none → s.iu.records.length < 6 →
      (receiveEnd id s).iu.records = s.iu.records ++
        [⟨id, .ended s.iu.endings (s.now + 60000000)⟩]) := by
  refine ⟨fun g hg he => ?_, fun g hg he => ?_, fun hn hl => ?_⟩
  · unfold receiveEnd
    rw [hg]
    simp only [he, Bool.false_eq_true, if_false]
    rw [endChain_records, List.map_map]
    refine List.map_congr_left fun r _ => ?_
    simp only [Function.comp]
    by_cases h : (resolve s.iu.records r.id).map Rec.id = some g.id
    · rw [if_pos (resolvesTo_iff.2 h), if_pos h]; rfl
    · rw [if_neg fun x => h (resolvesTo_iff.1 x), if_neg h]
  · unfold receiveEnd
    rw [hg]
    simp only [he, if_true]
  · unfold receiveEnd
    rw [resolve_of_not_held hn, makeRoom_of_short hl]
    exact addRec_new hn

/-- An END, or an INCIDENT of state ENDED, taken from the queue (R14, R22). -/
theorem endTaken_next {s : State} {f : Octets} {fs : List Octets} {id : Id} {i : Instr}
    (hrx : s.li.rx = f :: fs) (hm : s.sj.mode ≠ .configFault)
    (h : (i = .endReceived ∧ classify s.count f = .ending ∧ readEnd s.count (frameBody f) = some id) ∨
      (i = .incidentReceived ∧ classify s.count f = .incident ∧
        readIncident s.count (frameBody f) = some (.ended id))) :
    exec i s = .next (closeEvent s (receiveEnd id (catchUp id (takenFrom f fs s)))) := by
  rcases h with ⟨rfl, hc, hr⟩ | ⟨rfl, hc, hr⟩
  · have h := takeFrame_handOff hrx hc (by simp) hm
    rw [handOff_ending _ (classify_valid hc (by simp)).1] at h
    unfold receiveEnding at h
    rw [takenFrom_count, hr] at h
    exact h
  · have h := incidentReceived_next hrx hc hm
    unfold receiveIncident at h
    rw [takenFrom_count, hr] at h
    exact h

/-- Settles O29: what an END makes of the list is `receiveEnd_records`, and the ending timer's own effect is
closed as every event's is. -/
theorem endReceivedAndEndingTimer : Obligations.EndReceivedAndEndingTimer := by
  refine ⟨fun s f fs id i hrx hm hi => ?_, fun s id n t hr => ?_⟩
  · have k := closes_closeEvent s (receiveEnd id (catchUp id (takenFrom f fs s)))
    have rest : IuRest (takenFrom f fs s) (receiveEnd id (catchUp id (takenFrom f fs s))) :=
      (iuRest_catchUp id _).trans (iuRest_receiveEnd id _)
    have records : (catchUp id (takenFrom f fs s)).iu.records = s.iu.records := by simp
    have endings : (catchUp id (takenFrom f fs s)).iu.endings = s.iu.endings := by
      rw [catchUp_endings, takenFrom_iu]
    have now : (catchUp id (takenFrom f fs s)).now = s.now := by
      rw [(iuRest_catchUp id _).now, takenFrom_now]
    obtain ⟨ends, stands, makes⟩ := receiveEnd_records id (catchUp id (takenFrom f fs s))
    rw [records, endings, now] at ends makes
    rw [records] at stands
    refine ⟨_, endTaken_next hrx hm hi, ?_, ?_, ?_, fun g hg he => ?_, fun g hg he => ?_, fun hn hl => ?_⟩
    · rw [k.rx, rest.rx, takenFrom_rx]
    · rw [k.now, rest.now, takenFrom_now]
    · rw [k.iu_eq.2.1, rest.repeats, takenFrom_iu]
    · rw [k.bare]; exact ends g hg he
    · rw [k.bare, stands g hg he, records]
    · rw [k.bare, makes hn hl, List.map_append]; rfl
  · have hd : endingDue s.iu.records id = some t := by unfold endingDue; rw [hr]; rfl
    obtain ⟨u, hu, -, k, -⟩ := onTimer_closes
      (fun s => setRecords (s.iu.records.filter fun r => r.id != id) s) s hd
    exact ⟨u, hu, k⟩

end Sys2Proof.Machine
end

section
/-! PROOFS. The end of a re-announce's defer, the stand-down repeats and an INCIDENT for the one record (O30). -/

namespace Sys2Proof.Machine

/-! ## The bulletins of the Incident Unit's timers -/

/-- Times and frames are nothing that the closing stages look at. -/
theorem inert_bulletin (s : State) (t : Time) (a b c d : List IdTime) (q : List TxFrame) :
    Inert s { s with
      now := t
      iu := { s.iu with reannounce := a, incidentSent := b, endSent := c, endRepeats := d }
      li := { s.li with tx := q } } := by
  constructor <;> first | rfl | exact id

/-- A timer whose effect the closing stages do not look at leaves its effect alone. -/
theorem onTimer_eq {due : Option Time} {body : State → State} {s u : State} {t : Time}
    (hd : due = some t) (hs : Settled s) (hb : body (reachTime t s) = u) (hi : Inert s u) :
    onTimer due body s = .next u := by
  subst hb
  exact onTimer_inert hd hs hi

/-- An INCIDENT or END for an id that no waiting frame concerns joins the tail of its class (R152, R153). -/
theorem place_joins {b : Body} {id : Id} {s : State} (hb : bodyId b = some id)
    (hm : s.sj.mode ≠ .configFault) (hl : s.li.tx.length < 10)
    (hn : ∀ x ∈ s.li.tx, bodyId x.body ≠ some id) : place b s = setTx (insertTail ⟨b, 0⟩ s.li.tx) s := by
  have hr : replaceIn b s.li.tx = none := replaceIn_none.2 fun x hx => by
    rw [takesPlaceOf_incident hb]
    simpa using hn x hx
  unfold place
  rw [if_neg hm]
  cases b <;> cases hb <;> simp only [hr, joinTail_room _ s hl]

/-- An INCIDENT or END for an id takes the place of the frame that waits for it (R153). -/
theorem place_in {b : Body} {id : Id} {s : State} {l q : List TxFrame} {y : TxFrame}
    (hb : bodyId b = some id) (hm : s.sj.mode ≠ .configFault) (hq : s.li.tx = l ++ y :: q)
    (hy : bodyId y.body = some id) (hl : ∀ x ∈ l, bodyId x.body ≠ some id) :
    place b s = setTx (l ++ ⟨b, y.attempts⟩ :: q) s := by
  refine place_replaces b hm hq ?_ fun x hx => ?_
  · rw [takesPlaceOf_incident hb]; simpa using hy
  · rw [takesPlaceOf_incident hb]; simpa using hl x hx

/-! ## The end of a defer -/

/-- The survivor that an INCIDENT names: that of an ABSORBED record (R16, R141). -/
def survivorOf : RecState → Option Id
  | .absorbed y => some y
  | .active _ _ | .ended _ _ => none

theorem withinRate_false {l : List IdTime} {id : Id} {now : Time}
    (h : ∀ p, timeOf l id = some p → p + 1000000 ≤ now) : withinRate l id now = false := by
  unfold withinRate
  split
  · rfl
  · next t ht =>
    have := h t ht
    simp only [decide_eq_false_iff_not]
    exact Nat.not_lt.2 this

theorem withinRate_true {l : List IdTime} {id : Id} {now p : Time}
    (h : timeOf l id = some p) (hp : now < p + 1000000) : withinRate l id now = true := by
  unfold withinRate
  rw [h]
  exact decide_eq_true hp

/-- The defer ends with the id resolving to an ACTIVE record and the rate past (R26). -/
theorem endDefer_places {id : Id} {s : State} {r : Rec} {c : Content}
    (hf : findRec s.iu.records id = some r) (hc : resolvedContent s.iu.records id = some c)
    (hw : withinRate s.iu.incidentSent id s.now = false) : endDefer id s =
      place (.incident id (survivorOf r.st) c) { s with iu := { s.iu with
        reannounce := dropTime s.iu.reannounce id
        incidentSent := stampTime s.iu.incidentSent id s.now } } := by
  have hf' : findRec (dropReannounce id s).iu.records id = some r := hf
  have hc' : resolvedContent (dropReannounce id s).iu.records id = some c := hc
  unfold endDefer
  simp only [hc, hw, Bool.false_eq_true, if_false]
  unfold placeIncident
  simp only [hf', hc']
  cases r.st <;> rfl

theorem endDefer_waits {id : Id} {s : State} {c : Content} {p : Time}
    (hc : resolvedContent s.iu.records id = some c) (hp : timeOf s.iu.incidentSent id = some p)
    (hw : s.now < p + 1000000) : endDefer id s =
      { s with iu := { s.iu with reannounce := putTime s.iu.reannounce id (p + 1000000) } } := by
  unfold endDefer
  simp only [hc, withinRate_true hp hw, if_true]
  unfold waitRate
  simp only [hp]
  rfl

theorem endDefer_cancels {id : Id} {s : State} (hc : resolvedContent s.iu.records id = none) :
    endDefer id s = { s with iu := { s.iu with reannounce := dropTime s.iu.reannounce id } } := by
  unfold endDefer
  rw [hc]
  exact rfl

/-! ## An INCIDENT for the one record held -/

theorem catchUp_eq (id : Id) (s : State) :
    ∃ n, catchUp id s = { s with iu := { s.iu with counter := n } } := by
  unfold catchUp
  split
  · exact ⟨_, rfl⟩
  · exact ⟨s.iu.counter, rfl⟩

/-- What is found when a frame that names `id` has been taken and heard (R5, R109). -/
def heard (id : Id) (f : Octets) (fs : List Octets) (s : State) : State := catchUp id (takenFrom f fs s)

/-- Hearing a frame changes of the Incident Unit the counter alone. -/
theorem heard_rest (id : Id) (f : Octets) (fs : List Octets) (s : State) : ∃ n,
    heard id f fs s = { takenFrom f fs s with iu := { s.iu with counter := n } } := by
  obtain ⟨n, hn⟩ := catchUp_eq id (takenFrom f fs s)
  exact ⟨n, by unfold heard; rw [hn, takenFrom_iu]⟩

@[simp] theorem heard_records (id : Id) (f : Octets) (fs : List Octets) (s : State) :
    (heard id f fs s).iu.records = s.iu.records := by obtain ⟨n, h⟩ := heard_rest id f fs s; rw [h]
@[simp] theorem heard_reannounce (id : Id) (f : Octets) (fs : List Octets) (s : State) :
    (heard id f fs s).iu.reannounce = s.iu.reannounce := by
  obtain ⟨n, h⟩ := heard_rest id f fs s; rw [h]
@[simp] theorem heard_now (id : Id) (f : Octets) (fs : List Octets) (s : State) :
    (heard id f fs s).now = s.now := by
  obtain ⟨n, h⟩ := heard_rest id f fs s; rw [h]; exact takenFrom_now f fs s
@[simp] theorem heard_sj (id : Id) (f : Octets) (fs : List Octets) (s : State) :
    (heard id f fs s).sj = s.sj := by
  obtain ⟨n, h⟩ := heard_rest id f fs s; rw [h]; exact takenFrom_sj f fs s
@[simp] theorem heard_pt (id : Id) (f : Octets) (fs : List Octets) (s : State) :
    (heard id f fs s).pt = (takenFrom f fs s).pt := by
  obtain ⟨n, h⟩ := heard_rest id f fs s; rw [h]
@[simp] theorem heard_rx (id : Id) (f : Octets) (fs : List Octets) (s : State) :
    (heard id f fs s).li.rx = fs := by
  obtain ⟨n, h⟩ := heard_rest id f fs s; rw [h]; exact takenFrom_rx f fs s
@[simp] theorem heard_station (id : Id) (f : Octets) (fs : List Octets) (s : State) :
    (heard id f fs s).station = s.station := by unfold State.station; rw [heard_sj]

theorem activeReceived_next {s : State} {f : Octets} {fs : List Octets} {id : Id} {c : Content}
    (hrx : s.li.rx = f :: fs) (hc : classify s.count f = .incident) (hm : s.sj.mode ≠ .configFault)
    (hr : readIncident s.count (frameBody f) = some (.active id c)) :
    exec .incidentReceived s = .next (closeEvent s (receiveActive id c (heard id f fs s))) := by
  have h := incidentReceived_next hrx hc hm
  unfold receiveIncident at h
  rw [takenFrom_count, hr] at h
  exact h

/-- A view of the one record held is merged into it (R12, R15). -/
theorem receiveActive_single {s : State} {id : Id} {c old : Content} {d : Option Demand}
    (h : s.iu.records = [⟨id, .active old d⟩]) :
    let t := grown (replaceContent id old (merge old c) s)
    receiveActive id c s =
      divergeFrom id c (dropSaid id ((findRec t.iu.records id).bind contentOf == some c) t) := by
  have hr : resolve s.iu.records id = some ⟨id, .active old d⟩ :=
    resolve_self (by rw [h]; simp [findRec]) (by simp)
  unfold receiveActive applyView
  rw [hr]
  exact rfl

theorem replaceContent_single {s : State} {id : Id} {old : Content} {d : Option Demand} (m : Content)
    (h : s.iu.records = [⟨id, .active old d⟩]) :
    (replaceContent id old m s).iu = { s.iu with records := [⟨id, .active m d⟩] } := by
  have hs : setContent s.iu.records id m = [⟨id, .active m d⟩] := by rw [h]; simp [setContent]
  unfold replaceContent
  rw [noteConflict_iu, hs]
  rfl

/-- The re-announce of the one record held, when it is not pending, waits 20 ms and 20 ms more for each
station of distance (R26). -/
theorem triggerReannounce_single {s : State} {id : Id} {c : Content} {d : Option Demand}
    (h : s.iu.records = [⟨id, .active c d⟩]) :
    (triggerReannounce id s).iu.reannounce = match timeOf s.iu.reannounce id with
      | some _ => s.iu.reannounce
      | none => putTime s.iu.reannounce id (s.now + 20000 * (1 + distance s.station c)) := by
  have hc : resolvedContent s.iu.records id = some c :=
    resolvedContent_of_held (d := d) (by rw [h]; simp [held, findRec])
  unfold triggerReannounce
  rw [hc]
  cases timeOf s.iu.reannounce id <;> rfl

/-- The one record held is judged by what the INCIDENT carried (R25, R26). -/
theorem diverge_single {s : State} {id : Id} {m c : Content} {d : Option Demand}
    (h : s.iu.records = [⟨id, .active m d⟩]) :
    divergeFrom id c (dropSaid id ((findRec s.iu.records id).bind contentOf == some c) s) =
      if m = c then setReannounce (dropTime s.iu.reannounce id) s else triggerReannounce id s := by
  have said : ((findRec s.iu.records id).bind contentOf == some c) = decide (m = c) := by
    rw [h, Bool.eq_iff_iff]; simp [findRec, contentOf]
  have resolves : (resolve s.iu.records id).map Rec.id = some id := by
    rw [resolve_self (r := ⟨id, .active m d⟩) (by rw [h]; simp [findRec]) (by simp)]; rfl
  rw [said]
  unfold divergeFrom dropSaid
  by_cases hm : m = c
  · have hg : governing (setReannounce (dropTime s.iu.reannounce id) s) = some ⟨id, m, d⟩ :=
      governing_single (s := setReannounce _ s) h
    simp [hm] at hg ⊢
    rw [hg]
    simp
  · simp only [hm, decide_false, Bool.false_eq_true, if_false, governing_single h, resolves]
    simp [hm]

/-- Settles O30: the timers' bulletins are inert to the closing (`inert_bulletin`), and an INCIDENT for the one
record held is judged by `diverge_single`. -/
theorem reannounceAndEndRepeatPlaceTheirBulletins :
    Obligations.ReannounceAndEndRepeatPlaceTheirBulletins := by
  refine ⟨fun s id t hs hd => ⟨fun r c hf hc hw hm hl hn => ?_, fun r c l y q hf hc hw hm hq hy hl => ?_,
    fun c p hc hp hw => ?_, fun hc => ?_⟩, fun s x rest hs he hm hl hn => ?_,
    fun s x rest l y q hs he hm hq hy hl => ?_, fun s f fs id c old d hrx hc hm hr h hsil => ?_⟩
  · refine onTimer_eq hd hs ?_ (inert_bulletin s _ _ _ _ _ _)
    rw [endDefer_places (s := reachTime t s) hf hc (withinRate_false hw)]
    refine (place_joins (id := id) (by rfl) (by exact hm) (by exact hl) (by exact hn)).trans ?_
    cases r.st <;> rfl
  · refine onTimer_eq hd hs ?_ (inert_bulletin s _ _ _ _ _ _)
    rw [endDefer_places (s := reachTime t s) hf hc (withinRate_false hw)]
    refine (place_in (id := id) (by rfl) (by exact hm) (by exact hq) hy hl).trans ?_
    cases r.st <;> rfl
  · exact onTimer_eq hd hs (endDefer_waits (s := reachTime t s) hc hp hw) (inert_bulletin s _ _ _ _ _ _)
  · exact onTimer_eq hd hs (endDefer_cancels (s := reachTime t s) hc) (inert_bulletin s _ _ _ _ _ _)
  · refine onTimer_eq (t := x.time) (by rw [he]; simp [timeOf]) hs ?_ (inert_bulletin s _ _ _ _ _ _)
    have hf : dropFirst x.id s.iu.endRepeats = rest := by rw [he]; simp [dropFirst]
    unfold repeatEnd placeEnd
    rw [reachTime_iu, hf]
    exact place_joins (id := x.id) (by rfl) (by exact hm) (by exact hl) (by exact hn)
  · refine onTimer_eq (t := x.time) (by rw [he]; simp [timeOf]) hs ?_ (inert_bulletin s _ _ _ _ _ _)
    have hf : dropFirst x.id s.iu.endRepeats = rest := by rw [he]; simp [dropFirst]
    unfold repeatEnd placeEnd
    rw [reachTime_iu, hf]
    exact place_in (id := x.id) (by rfl) (by exact hm) (by exact hq) hy hl
  · generalize hz : heard id f fs s = z
    have records : z.iu.records = [⟨id, .active old d⟩] := by rw [← hz, heard_records, h]
    generalize ht : replaceContent id old (merge old c) z = t
    have tiu : t.iu = { z.iu with records := [⟨id, .active (merge old c) d⟩] } := by
      rw [← ht]; exact replaceContent_single _ records
    have trecords : t.iu.records = [⟨id, .active (merge old c) d⟩] := by rw [tiu]
    have rest : IuRest z t := ht ▸ iuRest_replaceContent _ _ _ z
    have none : NoneSilent t := fun p hp => by
      rw [rest.pt, ← hz, heard_pt] at hp
      exact NoneSilent.takenFrom hsil f fs p hp
    have stands : grown t = t := grown_stands
      (firstPair_none (meetingPairs_single (by rw [trecords]; rfl))) none.burntRecs
    have treannounce : t.iu.reannounce = s.iu.reannounce := by rw [tiu, ← hz]; simp
    have tnow : t.now = s.now := by rw [rest.now, ← hz]; simp
    have tstation : t.station = s.station := by
      unfold State.station; rw [rest.sj, ← hz, heard_sj]
    have all := receiveActive_single (c := c) records
    simp only [ht, stands] at all
    rw [diverge_single trecords] at all
    have k := closes_closeEvent s (receiveActive id c z)
    refine ⟨_, hz ▸ activeReceived_next hrx hc hm hr, ?_, fun hm => ?_, fun hm => ?_⟩
    · rw [k.rx, (iuRest_receiveActive id c z).rx, ← hz, heard_rx]
    · rw [k.iu_eq.1, all, if_pos hm, ← treannounce]
      rfl
    · have due := triggerReannounce_single trecords
      rw [treannounce, tnow, tstation] at due
      rw [k.iu_eq.1, all, if_neg hm]
      exact due

end Sys2Proof.Machine
end

section
/-! PROOFS. Peers that turn SILENT, and the burnt presumption where one record is held (O36). -/

namespace Sys2Proof.Machine

/-! ## The Peer Table -/

@[simp] theorem peerOf_putPeer_self (p : Peer) (pt : List Peer) : peerOf (putPeer p pt) p.index = p := by
  unfold peerOf
  induction pt with
  | nil => simp [putPeer]
  | cons x xs ih =>
    unfold putPeer
    split
    · simp
    · split
      · simp
      · next hne => rw [List.find?_cons_of_neg (by simpa using fun e => hne e.symm)]; exact ih

theorem peerOf_putPeer_ne {p : Peer} {q : Nat} (h : q ≠ p.index) (pt : List Peer) :
    peerOf (putPeer p pt) q = peerOf pt q := by
  have hp : (p.index == q) = false := by simpa using fun e => h e.symm
  unfold peerOf
  congr 1
  induction pt with
  | nil => simp [putPeer, hp]
  | cons x xs ih =>
    unfold putPeer
    split
    · simp [List.find?_cons, hp]
    · split
      · next he => simp [hp, ← he]
      · rw [List.find?_cons, List.find?_cons, ih]

/-- A peer's record is one held for that peer, or the UNKNOWN one (R107). -/
theorem peerOf_held (pt : List Peer) (p : Nat) :
    (∃ x ∈ pt, x.index = p ∧ peerOf pt p = x) ∨ peerOf pt p = ⟨p, .unknown, none, false⟩ := by
  unfold peerOf
  cases h : pt.find? fun x => x.index == p with
  | none => exact .inr rfl
  | some x => exact .inl ⟨x, List.mem_of_find?_eq_some h, by simpa using List.find?_some h, rfl⟩

/-- A frame from one peer leaves what is held for another. -/
theorem peerOf_takenFrom {f : Octets} {q : Nat} (h : q ≠ frameSource f) (fs : List Octets) (s : State) :
    peerOf (takenFrom f fs s).pt q = peerOf s.pt q := by
  unfold takenFrom heardFrom
  split
  · rfl
  · exact peerOf_putPeer_ne (p := { peerOf s.pt (frameSource f) with
      index := frameSource f, liveness := .live s.now }) h s.pt

/-! ## Burnt stations (R11) -/

/-- A peer's temperature as last heard, SILENT since, says its station is burnt. -/
theorem isBurnt_of_hot {s : State} {p : Nat} {v : Int} (hl : (peerOf s.pt p).liveness = .silent)
    (ht : ((peerOf s.pt p).status.bind fun st => st.view.temp) = some v) (hv : 60 ≤ v)
    (hp : 1 ≤ p ∧ p ≤ s.count ∧ p ≠ s.station) : isBurnt s p = true := by
  obtain ⟨st, hs, hv'⟩ := Option.bind_eq_some_iff.1 ht
  unfold isBurnt
  rw [hl, hs]
  simp [hv', hp, hv]

theorem isBurnt_congr {s t : State} {p : Nat} (hp : peerOf t.pt p = peerOf s.pt p) (hs : t.sj = s.sj) :
    isBurnt t p = isBurnt s p := by
  unfold isBurnt State.station State.count
  rw [hp, hs]

/-! ## Re-announces that are pending -/

/-- A re-announce of the id is pending. -/
def Pending (s : State) (id : Id) : Prop := (timeOf s.iu.reannounce id).isSome = true

theorem Pending.triggerReannounce {s : State} {id : Id} (h : Pending s id) (x : Id) :
    Pending (triggerReannounce x s) id := by
  unfold Pending at *
  unfold Machine.triggerReannounce
  split
  · change (timeOf (putTime s.iu.reannounce x _) id).isSome = true
    by_cases e : id = x
    · rw [e]; simp
    · rw [timeOf_putTime_ne _ _ e]; exact h
  · exact h

theorem Pending.triggerAll {s : State} {id : Id} (h : Pending s id) (l : List Id) :
    Pending (triggerAll l s) id := by
  induction l generalizing s with
  | nil => exact h
  | cons x xs ih => exact ih (h.triggerReannounce x)

/-- Every id that resolves to an ACTIVE record is pending once it has been triggered (R26). -/
theorem pending_triggerAll {s : State} {l : List Id} {id : Id} {c : Content} (hl : id ∈ l)
    (h : resolvedContent s.iu.records id = some c) : Pending (triggerAll l s) id := by
  induction l generalizing s with
  | nil => cases hl
  | cons x xs ih =>
    rcases List.mem_cons.1 hl with rfl | hl
    · exact Pending.triggerAll (triggerReannounce_pending h) xs
    · exact ih hl (by rwa [triggerReannounce_records])

/-! ## The one record held, and the stations it takes in -/

/-- The span is covered and the direction stands. -/
structure Widens (c c' : Content) : Prop where
  lo : c'.lo ≤ c.lo
  hi : c.hi ≤ c'.hi
  dir : c'.dir = c.dir
  rev : c'.rev = c.rev
  cmd : c'.cmd = c.cmd

theorem Widens.refl (c : Content) : Widens c c := ⟨le_refl _, le_refl _, rfl, rfl, rfl⟩

theorem Widens.trans {a b c : Content} (h : Widens a b) (g : Widens b c) : Widens a c :=
  ⟨g.lo.trans h.lo, h.hi.trans g.hi, g.dir.trans h.dir, g.rev.trans h.rev, g.cmd.trans h.cmd⟩

theorem widens_burntSpan (s : State) (c : Content) : Widens c (burntSpan s c) :=
  ⟨(burntSpan_wider s c).1, (burntSpan_wider s c).2, rfl, rfl, rfl⟩

theorem resolvedContent_single {s : State} {id : Id} {c : Content} {d : Option Demand}
    (h : s.iu.records = [⟨id, .active c d⟩]) : resolvedContent s.iu.records id = some c :=
  resolvedContent_of_held (d := d) (by rw [h]; simp [held, findRec])

theorem burntRecs_single {s : State} {id : Id} {c : Content} {d : Option Demand}
    (h : s.iu.records = [⟨id, .active c d⟩]) :
    burntRecs s = if spanGrew c (burntSpan s c) = true then [(id, c)] else [] := by
  unfold burntRecs
  rw [h, actives_active, actives_nil, List.filter_cons, List.filter_nil]

theorem takeBurnt_single {s : State} {id : Id} {c : Content} {d : Option Demand}
    (h : s.iu.records = [⟨id, .active c d⟩]) :
    (takeBurnt s).iu.records = [⟨id, .active (burntSpan s c) d⟩] := by
  rw [takeBurnt_records, h]; rfl

theorem takeBurnt_pending {s : State} {id : Id} {c : Content} {d : Option Demand}
    (h : s.iu.records = [⟨id, .active c d⟩]) (hg : spanGrew c (burntSpan s c) = true) :
    Pending (takeBurnt s) id := by
  have hr := takeBurnt_single h
  unfold takeBurnt at hr ⊢
  rw [triggerAll_records] at hr
  refine pending_triggerAll ?_ (resolvedContent_single hr)
  rw [burntRecs_single h, if_pos hg]
  simp

/-- A round of the settling, where one record is held. -/
theorem settleSpans_single_succ {s : State} {id : Id} {c : Content} {d : Option Demand} (n : Nat)
    (h : s.iu.records = [⟨id, .active c d⟩]) : settleSpans (n + 1) s =
      if spanGrew c (burntSpan s c) = true then settleSpans n (takeBurnt s) else s := by
  have hp : firstPair s.iu.records = none :=
    firstPair_none (meetingPairs_single (a := (id, c)) (by rw [h]; rfl))
  conv_lhs => unfold settleSpans
  rw [hp]
  simp only [burntRecs_single h]
  by_cases hg : spanGrew c (burntSpan s c) = true
  · simp [hg]
  · simp [hg]

/-- Settling leaves the one record held wider or as it was, and what is pending pending. -/
theorem settleSpans_single {s : State} {id : Id} {c : Content} {d : Option Demand} (n : Nat)
    (h : s.iu.records = [⟨id, .active c d⟩]) :
    ∃ c', (settleSpans n s).iu.records = [⟨id, .active c' d⟩] ∧ Widens c c' ∧
      (Pending s id → Pending (settleSpans n s) id) := by
  induction n generalizing s c with
  | zero => exact ⟨c, h, .refl c, fun x => x⟩
  | succ n ih =>
    rw [settleSpans_single_succ n h]
    split
    · obtain ⟨c', hr, hw, hp⟩ := ih (takeBurnt_single h)
      exact ⟨c', hr, (widens_burntSpan s c).trans hw, fun _ => hp (takeBurnt_pending h ‹_›)⟩
    · exact ⟨c, h, .refl c, fun x => x⟩

/-- A burnt station next to the span is taken in, and the record is re-announced (R11). -/
theorem burntSpan_takes {s : State} {c : Content} {p : Nat} (hb : isBurnt s p = true) (hp1 : 1 ≤ p)
    (hp : p = c.hi + 1 ∨ p + 1 = c.lo) : spanGrew c (burntSpan s c) = true ∧
      (p = c.hi + 1 → (burntSpan s c).hi = p) ∧ (p + 1 = c.lo → (burntSpan s c).lo = p) := by
  have hhi : p = c.hi + 1 → (burntSpan s c).hi = p := fun e => by
    have : isBurnt s (c.hi + 1) = true := e ▸ hb
    simp [burntSpan, this, e]
  have hlo : p + 1 = c.lo → (burntSpan s c).lo = p := fun e => by
    have e' : c.lo - 1 = p := by omega
    have : 2 ≤ c.lo := by omega
    simp [burntSpan, e', hb, this]
  refine ⟨?_, hhi, hlo⟩
  unfold spanGrew
  rcases hp with e | e
  · have : ((burntSpan s c).hi != c.hi) = true := by rw [hhi e]; simp; omega
    rw [this, Bool.or_true]
  · have : ((burntSpan s c).lo != c.lo) = true := by rw [hlo e]; simp; omega
    rw [this, Bool.true_or]

theorem settleSpans_takes {s : State} {id : Id} {c : Content} {d : Option Demand} {p : Nat} (n : Nat)
    (h : s.iu.records = [⟨id, .active c d⟩]) (hb : isBurnt s p = true) (hp1 : 1 ≤ p)
    (hp : p = c.hi + 1 ∨ p + 1 = c.lo) :
    ∃ c', (settleSpans (n + 1) s).iu.records = [⟨id, .active c' d⟩] ∧ Widens (burntSpan s c) c' ∧
      Pending (settleSpans (n + 1) s) id := by
  have hg := (burntSpan_takes hb hp1 hp).1
  rw [settleSpans_single_succ n h, if_pos hg]
  obtain ⟨c', hr, hw, hpend⟩ := settleSpans_single n (takeBurnt_single h)
  exact ⟨c', hr, hw, hpend (takeBurnt_pending h hg)⟩

/-- A station taken in lies within the span. -/
theorem burntSpan_covers {s : State} {c c' : Content} {p : Nat} (hb : isBurnt s p = true) (hp1 : 1 ≤ p)
    (hp : p = c.hi + 1 ∨ p + 1 = c.lo) (hc : c.lo ≤ c.hi) (hw : Widens (burntSpan s c) c') :
    c'.lo ≤ min c.lo p ∧ max c.hi p ≤ c'.hi := by
  obtain ⟨-, hhi, hlo⟩ := burntSpan_takes hb hp1 hp
  have w := (widens_burntSpan s c).trans hw
  have := w.lo
  have := w.hi
  have := hw.lo
  have := hw.hi
  rcases hp with e | e
  · have := hhi e
    omega
  · have := hlo e
    omega

/-- A second burnt station, next to the first, is taken in too (R11). -/
theorem settleSpans_takes_next {s : State} {id : Id} {c : Content} {d : Option Demand} {p q : Nat} (n : Nat)
    (h : s.iu.records = [⟨id, .active c d⟩]) (hc : c.lo ≤ c.hi) (hb : isBurnt s p = true) (hp1 : 1 ≤ p)
    (hq : isBurnt s q = true) (hq1 : 1 ≤ q)
    (hpq : p = c.hi + 1 ∧ q = p + 1 ∨ p + 1 = c.lo ∧ q + 1 = p) :
    ∃ c', (settleSpans (n + 2) s).iu.records = [⟨id, .active c' d⟩] ∧ c'.lo ≤ q ∧ q ≤ c'.hi := by
  have hp : p = c.hi + 1 ∨ p + 1 = c.lo := hpq.imp And.left And.left
  obtain ⟨hg, hhi, hlo⟩ := burntSpan_takes hb hp1 hp
  have w := widens_burntSpan s c
  have hwlo := w.lo
  have hwhi := w.hi
  have hb' : isBurnt (takeBurnt s) q = true := by
    rw [isBurnt_congr (by rw [(iuRest_takeBurnt s).pt]) (iuRest_takeBurnt s).sj]; exact hq
  have hq' : q = (burntSpan s c).hi + 1 ∨ q + 1 = (burntSpan s c).lo := by
    rcases hpq with ⟨e, e'⟩ | ⟨e, e'⟩
    · left; rw [hhi e]; exact e'
    · right; rw [hlo e]; exact e'
  rw [settleSpans_single_succ (n + 1) h, if_pos hg]
  obtain ⟨c', hr, hw, -⟩ := settleSpans_takes n (takeBurnt_single h) hb' hq1 hq'
  obtain ⟨h1, h2⟩ := burntSpan_covers hb' hq1 hq' (by omega) hw
  exact ⟨c', hr, by omega, by omega⟩

/-- A list that shows one ACTIVE record but for its demand part. -/
theorem bare_single {rs : List Rec} {id : Id} {c : Content} {d : Option Demand}
    (h : rs.map bare = [bare ⟨id, .active c d⟩]) : ∃ r, rs = [r] ∧ r.id = id ∧ contentOf r = some c := by
  obtain ⟨r, rfl, hr⟩ := List.map_eq_singleton_iff.1 h
  have hi : r.id = id := by rw [← bare_id r, hr]; rfl
  refine ⟨r, rfl, hi, ?_⟩
  obtain ⟨i, st⟩ := r
  cases st <;> simp [bare] at hr
  simp [contentOf, hr]

/-- What closes an event leaves the one record held but for its demand part. -/
theorem Closes.single {s t : State} (k : Closes s t) {id : Id} {c : Content} {d : Option Demand}
    (h : s.iu.records = [⟨id, .active c d⟩]) :
    ∃ r, t.iu.records = [r] ∧ r.id = id ∧ contentOf r = some c :=
  bare_single (d := d) (by rw [k.bare, h]; rfl)

/-! ## A peer turns SILENT -/

theorem peerOf_silencePeer_self (p : Nat) (s : State) : peerOf (silencePeer p s).pt p =
    { peerOf s.pt p with index := p, liveness := .silent, stale := (peerOf s.pt p).status.isSome } :=
  peerOf_putPeer_self { peerOf s.pt p with
    index := p, liveness := .silent, stale := (peerOf s.pt p).status.isSome } s.pt

theorem peerOf_silencePeer_ne {p q : Nat} (h : q ≠ p) (s : State) :
    peerOf (silencePeer p s).pt q = peerOf s.pt q :=
  peerOf_putPeer_ne (p := { peerOf s.pt p with
    index := p, liveness := .silent, stale := (peerOf s.pt p).status.isSome }) h s.pt

theorem peerSilent_next {s : State} {p : Nat} {h : Time} (hl : (peerOf s.pt p).liveness = .live h) :
    ∃ z, z.iu = s.iu ∧ z.sj = s.sj ∧ z.pt = (silencePeer p s).pt ∧
      exec (.peerSilent p) s = .next (closeEvent s (grown z)) := by
  have hd : silentDue (peerOf s.pt p) = some (h + 4 * peerPeriod (peerOf s.pt p)) := by
    unfold silentDue; rw [hl]
  obtain ⟨u, hu, he, -⟩ := onTimer_closes (fun s => grown (silencePeer p s)) s hd
  exact ⟨silencePeer p (reachTime _ s), rfl, rfl, rfl, hu.trans (congrArg _ he)⟩

/-- A peer last heard cool, or with no valid temperature, is no burnt station. -/
theorem isBurnt_cool {s : State} {p : Nat} (h : (peerOf s.pt p).status = none ∨
    ∃ st, (peerOf s.pt p).status = some st ∧
      (st.view.temp = none ∨ ∃ v, st.view.temp = some v ∧ v < 60)) : isBurnt s p = false := by
  unfold isBurnt
  split
  · next st hs hst =>
    rw [hst] at h
    rcases h with h | ⟨st', e, h⟩
    · cases h
    · cases e
      rcases h with h | ⟨v, h, hv⟩
      · rw [h]
      · rw [h]; simp [hv]
  · rfl

theorem burntRecs_none {s : State} (h : ∀ q, isBurnt s q = false) : burntRecs s = [] := by
  unfold burntRecs
  rw [List.filter_eq_nil_iff]
  intro a _
  rw [burntSpan_self (h _) (h _), spanGrew_self]
  simp

/-! ## An alarm over an empty list -/

/-- The alarm input's debounced assertion is an alarm event (R132, R134). -/
theorem manualAlarm_next {s : State} {t : Time} (hd : s.su.manualAlarm.due = some t)
    (hp : s.su.manualAlarm.pin = true) : exec (.debounceExpiry .manualAlarm) s = .next (closeEvent s
      (alarmEvent (setSu (s.su.setInput .manualAlarm ⟨true, true, none⟩) (reachTime t s)))) := by
  have h := debounceExpiry_next (n := .manualAlarm) hd
  have taken : inputTaken (s.su.input .manualAlarm) = ⟨true, true, none⟩ := by
    change (⟨s.su.manualAlarm.pin, s.su.manualAlarm.pin, none⟩ : Debounced) = _
    rw [hp]
  rw [taken] at h
  exact h

theorem alarmEvent_acts {s : State}
    (hm : s.sj.mode = .quiet ∨ s.sj.mode = .incident ∨ s.sj.mode = .maintenance) :
    alarmEvent s = actOnAlarm s := by
  unfold alarmEvent
  split
  · next h => simp [h] at hm
  · rfl
  · rfl
  · rfl
  · next h => simp [h] at hm

/-- The state in which a declaration's record is held and its INCIDENT placed, in the list `rs` (R7). -/
def declared (rs : List Rec) (s : State) : State :=
  placeIncident (declaredRec s).id { s with iu := { s.iu with
    records := addRec rs (declaredRec s)
    counter := s.iu.counter + 1#4 } }

theorem declare_eq {s : State} {rs : List Rec} (h : makeRoom s.iu.records = some rs) :
    declare s = grown (declared rs s) := by
  unfold declare; rw [h]; rfl

theorem actOnAlarm_declares {s : State} (h : ∀ a ∈ actives s.iu.records, withinReach s.station a.2 = false) :
    actOnAlarm s = declare s := by
  unfold actOnAlarm
  rw [if_neg]
  simpa using h

@[simp] theorem declared_records (rs : List Rec) (s : State) :
    (declared rs s).iu.records = addRec rs (declaredRec s) := by
  unfold declared; rw [placeIncident_records]

theorem iuRest_declared (rs : List Rec) (s : State) : IuRest s (declared rs s) :=
  (iuRest_iu s _ _ _ _ _ _).trans (iuRest_placeIncident _ _)

theorem applyView_empty {s : State} {id : Id} {c : Content} (h : s.iu.records = []) :
    applyView id c s = (setRecords [⟨id, .active c none⟩] s, false) := by
  unfold applyView
  rw [h, resolve_of_not_held rfl]
  exact rfl

theorem receiveActive_empty {s : State} {id : Id} {c : Content} (h : s.iu.records = []) :
    let t := grown (setRecords [⟨id, .active c none⟩] s)
    receiveActive id c s =
      divergeFrom id c (dropSaid id ((findRec t.iu.records id).bind contentOf == some c) t) := by
  unfold receiveActive
  rw [applyView_empty h]
  exact rfl

theorem readContent_span {n : Nat} {b : Octets} {c : Content} (h : readContent n b = some c) :
    c.lo ≤ c.hi := by
  unfold readContent at h
  dsimp only at h
  split at h
  · next hc =>
    cases h
    simp only [Bool.and_eq_true, decide_eq_true_eq] at hc
    exact hc.1.1.1.1.2
  · cases h

theorem readIncident_span {n : Nat} {b : Octets} {id : Id} {c : Content}
    (h : readIncident n b = some (.active id c)) : c.lo ≤ c.hi := by
  unfold readIncident at h
  split at h
  · next hc =>
    split at h
    · cases h; exact readContent_span hc
    · split at h
      · split at h <;> cases h
      · cases h
    · cases h
    · cases h
  · cases h

/-- An INCIDENT for the one record held, or for the first, over a burnt station next to its span (R11, R15). -/
theorem receiveActive_takes {z : State} {id : Id} {c m : Content} {p : Nat}
    (hm : z.iu.records = [] ∧ m = c ∨
      ∃ old d, z.iu.records = [⟨id, .active old d⟩] ∧ m = merge old c)
    (hb : isBurnt z p = true) (hp1 : 1 ≤ p) (hp : p = m.hi + 1 ∨ p + 1 = m.lo) (hc : c.lo ≤ c.hi) :
    ∃ c' d, (receiveActive id c z).iu.records = [⟨id, .active c' d⟩] ∧ Widens m c' ∧
      c'.lo ≤ min m.lo p ∧ max m.hi p ≤ c'.hi ∧ Pending (receiveActive id c z) id := by
  obtain ⟨t, d, rest, ht, all⟩ : ∃ t d, IuRest z t ∧ t.iu.records = [⟨id, .active m d⟩] ∧
      receiveActive id c z = divergeFrom id c (dropSaid id
        ((findRec (grown t).iu.records id).bind contentOf == some c) (grown t)) := by
    rcases hm with ⟨h, rfl⟩ | ⟨old, d, h, rfl⟩
    · exact ⟨_, none, iuRest_setRecords _ z, rfl, receiveActive_empty h⟩
    · exact ⟨_, d, iuRest_replaceContent id old (merge old c) z,
        by rw [replaceContent_single _ h], receiveActive_single h⟩
  have within : m.lo ≤ c.lo ∧ c.hi ≤ m.hi := by
    rcases hm with ⟨-, rfl⟩ | ⟨old, -, -, rfl⟩
    · exact ⟨le_refl _, le_refl _⟩
    · exact ⟨min_le_right _ _, le_max_right _ _⟩
  have hb' : isBurnt t p = true := by rw [isBurnt_congr (by rw [rest.pt]) rest.sj]; exact hb
  obtain ⟨c', hr, hw, -⟩ := settleSpans_takes 799 ht hb' hp1 hp
  have hr : (grown t).iu.records = [⟨id, .active c' d⟩] := hr
  obtain ⟨hlo, hhi⟩ := burntSpan_covers hb' hp1 hp (by omega) hw
  have hne : c' ≠ c := fun e => by
    rw [e] at hlo hhi
    omega
  rw [diverge_single hr, if_neg hne] at all
  refine ⟨c', d, by rw [all, triggerReannounce_records, hr], (widens_burntSpan t m).trans hw, hlo, hhi, ?_⟩
  rw [all]
  exact triggerReannounce_pending (resolvedContent_single hr)

/-- Settles O36: with one record held the settling is `settleSpans_takes`, and it is idle where no neighbour is
burnt. -/
theorem burntPeerJoinsTheSpan : Obligations.BurntPeerJoinsTheSpan := by
  refine ⟨fun s p h st v id c d hl hst hv h60 hr hc hp1 hpn hps hp => ?_,
    fun s p h id c d hl hcool hr hq => ?_, fun s t p v hd hpin hm hr hhot hp => ?_,
    fun s f fs id c m p v hrx hcl hm hread hrs hhot hpf hp => ?_⟩
  · obtain ⟨z, ziu, zsj, zpt, next⟩ := peerSilent_next hl
    have zr : z.iu.records = [⟨id, .active c d⟩] := by rw [ziu, hr]
    have hb : isBurnt z p = true := by
      refine isBurnt_of_hot (v := v) ?_ ?_ h60 ?_
      · rw [zpt, peerOf_silencePeer_self]
      · rw [zpt, peerOf_silencePeer_self, hst]; exact hv
      · unfold State.count State.station; rw [zsj]; exact ⟨hp1, hpn, hps⟩
    obtain ⟨c', zs, hw, hpend⟩ := settleSpans_takes 799 zr hb hp1 hp
    have hw' := (widens_burntSpan z c).trans hw
    obtain ⟨hlo, hhi⟩ := burntSpan_covers hb hp1 hp hc hw
    have k := closes_closeEvent s (grown z)
    obtain ⟨r, hu, hi, hcont⟩ := k.single (d := d) zs
    refine ⟨_, r, c', next, hu, hi, hcont, hlo, hhi, hw'.dir, hw'.rev, hw'.cmd, ?_, ?_⟩
    · rw [k.iu_eq.1]; exact hpend
    · rintro q w ⟨hql, hqt, hqv, hq1, hqn, hqs⟩ hqp hpq
      have hbq : isBurnt z q = true := by
        refine isBurnt_of_hot (v := w) ?_ ?_ hqv ?_
        · rw [zpt, peerOf_silencePeer_ne hqp]; exact hql
        · rw [zpt, peerOf_silencePeer_ne hqp]; exact hqt
        · unfold State.count State.station; rw [zsj]; exact ⟨hq1, hqn, hqs⟩
      obtain ⟨c'', zs', h1, h2⟩ := settleSpans_takes_next 798 zr hc hb hp1 hbq hq1 hpq
      rw [zs'] at zs
      cases zs
      exact ⟨h1, h2⟩
  · obtain ⟨z, ziu, zsj, zpt, next⟩ := peerSilent_next hl
    have zr : z.iu.records = [⟨id, .active c d⟩] := by rw [ziu, hr]
    have cool : ∀ q, isBurnt z q = false := fun q => by
      by_cases e : q = p
      · subst e
        refine isBurnt_cool ?_
        rw [zpt, peerOf_silencePeer_self]
        exact hcool
      · have hs : (peerOf z.pt q).liveness ≠ .silent := by
          rw [zpt, peerOf_silencePeer_ne e]
          rcases peerOf_held s.pt q with ⟨x, hx, hi, he⟩ | he
          · rw [he]; exact hq x hx (by rw [hi]; exact e)
          · rw [he]; simp
        unfold isBurnt
        split
        · exact absurd ‹_› hs
        · rfl
    have stands : grown z = z := grown_stands
      (firstPair_none (meetingPairs_single (by rw [zr]; rfl))) (burntRecs_none cool)
    rw [stands] at next
    have k := closes_closeEvent s z
    obtain ⟨r, hu, hi, hcont⟩ := k.single zr
    exact ⟨_, r, next, hu, hi, hcont, by rw [k.iu_eq.1, ziu]⟩
  · have next := manualAlarm_next hd hpin
    generalize hz : setSu (s.su.setInput .manualAlarm ⟨true, true, none⟩) (reachTime t s) = z at next
    have zsj : z.sj = s.sj := by rw [← hz]; rfl
    have zr : z.iu.records = [] := by rw [← hz]; exact hr
    rw [alarmEvent_acts (by rw [zsj]; exact hm), actOnAlarm_declares (by rw [zr]; simp),
      declare_eq (rs := []) (by rw [zr]; rfl)] at next
    have rest := iuRest_declared [] z
    obtain ⟨hl, ht, h60, hp1, hpn, hps⟩ := hhot
    have hb : isBurnt (declared [] z) p = true := by
      have zpt : z.pt = s.pt := by rw [← hz]; rfl
      rw [isBurnt_congr (s := s) (by rw [rest.pt, zpt]) (by rw [rest.sj, zsj])]
      exact isBurnt_of_hot hl ht h60 ⟨hp1, hpn, hps⟩
    have zst : z.station = s.station := by unfold State.station; rw [zsj]
    obtain ⟨c', zs, hw, hpend⟩ := settleSpans_takes 799 (declared_records [] z) hb hp1
      (by dsimp only; rw [zst]; omega)
    obtain ⟨hlo, hhi⟩ := burntSpan_covers hb hp1 (by dsimp only; rw [zst]; omega) (le_refl _) hw
    have k := closes_closeEvent s (grown (declared [] z))
    obtain ⟨r, hu, hi, hcont⟩ := k.single zs
    have hi' : r.id = ⟨s.station, s.iu.counter⟩ := by rw [hi, zst, ← hz]; rfl
    refine ⟨_, r, c', next, hu, hi', hcont, ?_, ?_, ?_⟩
    · rw [← zst, min_comm]; exact hlo
    · rw [← zst, max_comm]; exact hhi
    · rw [k.iu_eq.1, hi]; exact hpend
  · obtain ⟨hl, ht, h60, hp1, hpn, hps⟩ := hhot
    have hb : isBurnt (heard id f fs s) p = true := by
      rw [isBurnt_congr (s := s) (by rw [heard_pt, peerOf_takenFrom hpf]) (heard_sj id f fs s)]
      exact isBurnt_of_hot hl ht h60 ⟨hp1, hpn, hps⟩
    obtain ⟨c', d, zs, hw, hlo, hhi, hpend⟩ := receiveActive_takes (z := heard id f fs s) (id := id) (c := c)
      (m := m) (by
        rw [heard_records]
        exact hrs.imp (fun h => h) fun ⟨old, d, h, hm, _⟩ => ⟨old, d, h, hm⟩)
      hb hp1 hp (readIncident_span hread)
    have k := closes_closeEvent s (receiveActive id c (heard id f fs s))
    obtain ⟨r, hu, hi, hcont⟩ := k.single zs
    exact ⟨_, r, c', activeReceived_next hrx hcl hm hread, hu, hi, hcont, hlo, hhi, hw.dir, hw.rev, hw.cmd,
      by rw [k.iu_eq.1]; exact hpend⟩

end Sys2Proof.Machine
end

section
/-! PROOFS. The mode that an event ends in, and alarm events (O8). -/

namespace Sys2Proof.Machine

/-! ## The mode after an event -/

/-- With no maintenance entry pending, the mode after an event is the one that its list gives (R28, R83). -/
theorem follow_sj (b : State) {s : State} (h : s.fs.maintPending = false) :
    (follow b s).sj = (followList s).sj := by
  have hp : (planned b (governingChanged b (followList s))).fs.maintPending = false := by
    rw [planned_entry, governingChanged_fs]
    unfold followList
    split <;> exact h
  change (testClaim (enterIfReady (planned b (governingChanged b (followList s))))).sj = _
  unfold enterIfReady
  rw [maintReady_of_not_pending hp, testClaim_sj]
  simp

theorem placeStatus_sj (s : State) : (placeStatus s).sj = s.sj := by unfold placeStatus; rw [place_sj]

theorem placeEarly_sj (s : State) : (placeEarly s).sj = s.sj := by
  unfold placeEarly
  dsimp only
  split <;> exact placeStatus_sj s

theorem requestEarly_sj (b s : State) : (requestEarly b s).sj = s.sj := by
  unfold requestEarly
  split
  · split
    · rfl
    · split
      · exact placeEarly_sj s
      · rfl
  · rfl

theorem closeEvent_sj (b : State) {s : State} (h : s.fs.maintPending = false) :
    (closeEvent b s).sj = (followList s).sj := by
  unfold closeEvent
  rw [requestEarly_sj, follow_sj b h]

/-- In INCIDENT or QUIET the list gives the mode (R28). -/
theorem followList_sj {s : State} (h : s.sj.mode = .quiet ∨ s.sj.mode = .incident) :
    (followList s).sj = { s.sj with mode := if anyActive s then .incident else .quiet } := by
  unfold followList
  rcases h with h | h
  · rw [h]; exact rfl
  · rw [h]; exact rfl

/-- With an ACTIVE record held the station is in INCIDENT, or stays in MAINTENANCE (R28, R29). -/
theorem followList_active {s : State} (ha : anyActive s = true)
    (h : s.sj.mode = .quiet ∨ s.sj.mode = .incident ∨ s.sj.mode = .maintenance) :
    (followList s).sj.mode = if s.sj.mode = .maintenance then .maintenance else .incident := by
  rcases h with h | h | h
  · rw [followList_sj (.inl h), h, ha]; exact rfl
  · rw [followList_sj (.inr h), h, ha]; exact rfl
  · unfold followList; rw [h, if_pos rfl]; exact h

theorem anyActive_of_actives {s : State} {a : Id × Content} {l : List (Id × Content)}
    (h : actives s.iu.records = a :: l) : anyActive s = true := by
  rw [anyActive_iff, h]; simp

/-! ## What a declaration makes -/

/-- The content of the record a declaration makes (R7, R8). -/
def declaredContent (s : State) : Content :=
  ⟨s.station, s.station, if 2 * s.station ≤ s.count + 1 then .towardA else .towardB, 0, none⟩

theorem declaredRec_eq (s : State) :
    declaredRec s = ⟨⟨s.station, s.iu.counter⟩, .active (declaredContent s) none⟩ := by
  unfold declaredRec declaredContent computedDirection
  rw [two_mul]

theorem declaredContent_congr {s t : State} (h : t.sj = s.sj) : declaredContent t = declaredContent s := by
  unfold declaredContent State.station State.count; rw [h]

theorem findRec_addRec_self (rs : List Rec) (r : Rec) : findRec (addRec rs r) r.id = some r :=
  held_eq_some.1 (by rw [held_addRec, if_pos rfl])

/-- An INCIDENT for an ACTIVE record is placed with its content (R141). -/
theorem placeIncident_active {s : State} {id : Id} {c : Content} {d : Option Demand}
    (h : findRec s.iu.records id = some ⟨id, .active c d⟩) : placeIncident id s =
      place (.incident id none c) { s with iu := { s.iu with
        incidentSent := stampTime s.iu.incidentSent id s.now } } := by
  have hc : resolvedContent s.iu.records id = some c :=
    resolvedContent_of_held (d := d) (by unfold held; rw [h]; rfl)
  unfold placeIncident
  simp only [h, hc]

theorem declared_eq (rs : List Rec) (s : State) : declared rs s =
    place (.incident ⟨s.station, s.iu.counter⟩ none (declaredContent s)) { s with iu := { s.iu with
      records := addRec rs (declaredRec s)
      counter := s.iu.counter + 1#4
      incidentSent := stampTime s.iu.incidentSent ⟨s.station, s.iu.counter⟩ s.now } } := by
  have hf := findRec_addRec_self rs (declaredRec s)
  unfold declared
  rw [declaredRec_eq] at hf ⊢
  exact placeIncident_active (s := { s with iu := { s.iu with
    records := addRec rs _, counter := s.iu.counter + 1#4 } }) hf

theorem declared_iu (rs : List Rec) (s : State) : (declared rs s).iu = { s.iu with
      records := addRec rs (declaredRec s)
      counter := s.iu.counter + 1#4
      incidentSent := stampTime s.iu.incidentSent ⟨s.station, s.iu.counter⟩ s.now } := by
  rw [declared_eq, place_iu]

/-- The declaration's INCIDENT waits where there was room (R7, R153). -/
theorem declared_has (rs : List Rec) {s : State} (hm : s.sj.mode ≠ .configFault)
    (hl : s.li.tx.length < 10) : ∃ f ∈ (declared rs s).li.tx,
      f.body = .incident ⟨s.station, s.iu.counter⟩ none (declaredContent s) := by
  rw [declared_eq]
  exact place_has (.incident ⟨s.station, s.iu.counter⟩ none (declaredContent s)) { s with iu := { s.iu with
      records := addRec rs (declaredRec s)
      counter := s.iu.counter + 1#4
      incidentSent := stampTime s.iu.incidentSent ⟨s.station, s.iu.counter⟩ s.now } } hm hl (by simp)

theorem IuRest.noneSilent {s t : State} (k : IuRest s t) (h : NoneSilent s) : NoneSilent t := fun p hp =>
  h p (by rwa [k.pt] at hp)

/-- The first record is declared, and its span meets no other (R7). -/
theorem actOnAlarm_first {s : State} (hr : s.iu.records = []) (hs : NoneSilent s) :
    actOnAlarm s = declared [] s := by
  rw [actOnAlarm_declares (by rw [hr]; simp), declare_eq (rs := []) (by rw [hr]; rfl)]
  refine grown_stands (firstPair_none (meetingPairs_single (a := (⟨s.station, s.iu.counter⟩,
    declaredContent s)) ?_)) ((iuRest_declared [] s).noneSilent hs).burntRecs
  rw [declared_records, declaredRec_eq]
  exact rfl

theorem declared_first (s : State) : (declared [] s).iu.records =
    [⟨⟨s.station, s.iu.counter⟩, .active (declaredContent s) none⟩] := by
  rw [declared_records, declaredRec_eq]; exact rfl

/-! ## The heat alarm -/

/-- A heat sample of 70 °C or more after another such is an alarm event (R129, R130). -/
theorem sustainedHeat_next {s : State} {t : Time} {h l c : Octet} {v w : Int}
    (ht : s.su.transaction = some ⟨.heat, t⟩) (ha : s.su.alarm = .armed)
    (hv : sampleValue .heat h l c = some v) (h70 : 70 ≤ v)
    (hh : s.su.history[0]? = some (some w)) (hw : 70 ≤ w) :
    ∃ y : State, y.iu = s.iu ∧ y.sj = s.sj ∧ y.fs = s.fs ∧ y.pt = s.pt ∧ y.su.alarm = .alarmed 0 ∧
      exec (.sensorSample h l c) s = .next (closeEvent s (alarmEvent y)) := by
  have tests : heatTests (historyTake (some v) s.su.history) s.su.opacity.value = true := by
    have h1 : (historyTake (some v) s.su.history)[1]? = some (some w) := by
      rw [historyTake, List.getElem?_cons_succ, List.getElem?_take_of_lt (by omega), hh]
    have h0 : (historyTake (some v) s.su.history)[0]? = some (some v) := rfl
    unfold heatTests sustainedHeat
    rw [h0, h1]
    simp [h70, hw]
  obtain ⟨u, hu, he, -⟩ := onTimer_closes (due := some t) (fun s => takeSample .heat (some v)
    (beginTransaction (nextSensor .heat) s)) s rfl
  have taken : exec (.sensorSample h l c) s = onTimer (some t) (fun s => takeSample .heat (some v)
      (beginTransaction (nextSensor .heat) s)) s := by
    change execSensorSample h l c s = _
    unfold execSensorSample
    rw [ht]
    simp only [hv]
  refine ⟨setSu { s.su with
    transaction := (nextSensor .heat).map fun x => ⟨x, max s.now t + transactionTime⟩
    heat := s.su.heat.take (some v), history := historyTake (some v) s.su.history, alarm := .alarmed 0 }
    (reachTime t s), rfl, rfl, rfl, rfl, rfl, taken.trans (hu.trans (congrArg _ (he.trans ?_)))⟩
  congr 1
  unfold takeSample
  dsimp only
  unfold noteInvalid
  rw [if_neg (by simp)]
  unfold heatAlarmStep
  simp only [setSu_su, beginTransaction, reachTime_su, ha, tests, if_true]
  exact rfl

end Sys2Proof.Machine
end

section
/-! PROOFS. An alarm event beside the one record held: it extends it, or declares and is absorbed (O8). -/

namespace Sys2Proof.Machine

/-! ## The span extended -/

theorem withinReach_iff {p : Nat} {c : Content} :
    withinReach p c = true ↔ c.lo ≤ p + 2 ∧ p ≤ c.hi + 2 := by simp [withinReach]

theorem spanGrew_widened {p : Nat} {c : Content} :
    spanGrew c (widened p c) = true ↔ min c.lo p ≠ c.lo ∨ max c.hi p ≠ c.hi := by
  simp only [spanGrew, widened, Bool.or_eq_true, bne_iff_ne]

/-- An alarm event within reach of the one record held widens it to the own station (R9). -/
theorem actOnAlarm_extends {s : State} {id : Id} {c : Content} {d : Option Demand}
    (h : s.iu.records = [⟨id, .active c d⟩]) (hr : withinReach s.station c = true) (hs : NoneSilent s) :
    (actOnAlarm s).iu.records = [⟨id, .active (widened s.station c) d⟩] ∧
      (actOnAlarm s).iu.counter = s.iu.counter ∧
      (spanGrew c (widened s.station c) = true → Pending (actOnAlarm s) id) := by
  have hx : extended s = if spanGrew c (widened s.station c) = true then [id] else [] := by
    unfold extended
    rw [h, actives_active, actives_nil, List.filter_cons, List.filter_nil]
    simp only [hr, Bool.true_and]
    split <;> rfl
  have hact : actOnAlarm s = extendRecords s := by
    unfold actOnAlarm
    rw [if_pos (by rw [h]; simpa using hr)]
  rw [hact, extendRecords_eq, hx]
  by_cases hg : spanGrew c (widened s.station c) = true
  · have records : (s.iu.records.map fun r => (⟨r.id, onContent (reached s.station) r.st⟩ : Rec)) =
        [⟨id, .active (widened s.station c) d⟩] := by
      rw [h]; simp [onContent, reached, hr]
    rw [if_pos hg, records]
    have tr : (triggerAll [id] (setRecords [⟨id, .active (widened s.station c) d⟩] s)).iu.records =
        [⟨id, .active (widened s.station c) d⟩] := triggerAll_records _ _
    have rest := (iuRest_setRecords [⟨id, .active (widened s.station c) d⟩] s).trans
      (iuRest_triggerAll [id] _)
    have stands : grown (triggerAll [id] (setRecords [⟨id, .active (widened s.station c) d⟩] s)) =
        triggerAll [id] (setRecords [⟨id, .active (widened s.station c) d⟩] s) := grown_stands
      (firstPair_none (meetingPairs_single (by rw [tr]; rfl))) (rest.noneSilent hs).burntRecs
    simp only [List.isEmpty_cons, Bool.false_eq_true, if_false, stands]
    refine ⟨tr, ?_, fun _ => pending_triggerAll (c := widened s.station c) List.mem_cons_self ?_⟩
    · change (triggerReannounce id _).iu.counter = _
      unfold triggerReannounce
      split <;> rfl
    · exact resolvedContent_single (d := d) rfl
  · have same : widened s.station c = c := by
      rw [spanGrew_widened, not_or, not_not, not_not] at hg
      unfold widened
      rw [hg.1, hg.2]
    rw [if_neg hg]
    refine ⟨?_, rfl, fun x => absurd x hg⟩
    rw [same]
    exact h

/-! ## Two spans that meet -/

/-- The one pair that meets is handled first. -/
theorem firstPair_unique {rs : List Rec} {p : Id × Id} (h : p ∈ meetingPairs rs)
    (hu : ∀ q ∈ meetingPairs rs, q = p) : firstPair rs = some p := by
  have hne : firstPair rs ≠ none := by
    obtain ⟨a, ha⟩ := Option.isSome_iff_exists.1 (lowestKey_isSome
      (ids := (meetingPairs rs).map Prod.fst) (List.ne_nil_of_mem (List.mem_map_of_mem h)))
    obtain ⟨q, hq, he⟩ := List.mem_map.1 (lowestKey_mem ha)
    obtain ⟨b, hb⟩ := Option.isSome_iff_exists.1 (lowestKey_isSome
      (ids := ((meetingPairs rs).filter fun p => p.1 == a).map Prod.snd)
      (List.ne_nil_of_mem (List.mem_map_of_mem (List.mem_filter.2 ⟨hq, by simpa using he⟩))))
    unfold firstPair
    rw [ha]
    dsimp only
    rw [hb]
    simp
  obtain ⟨q, hq⟩ := Option.ne_none_iff_exists'.1 hne
  rw [hq, hu q (firstPair_some hq)]

/-- Two ACTIVE records whose spans meet are the pair that is joined, the lower key first (R16). -/
theorem firstPair_two {rs : List Rec} {x y : Id} {a b : Content}
    (h : ∀ p, p ∈ actives rs ↔ p = (x, a) ∨ p = (y, b)) (hk : keyLt x y = true)
    (hm : spansMeet a b = true) : firstPair rs = some (x, y) := by
  refine firstPair_unique (mem_meetingPairs.2 ⟨(x, a), (h _).2 (.inl rfl), (y, b), (h _).2 (.inr rfl),
    hk, hm, rfl⟩) fun q hq => ?_
  obtain ⟨u, hu, v, hv, hk', -, rfl⟩ := mem_meetingPairs.1 hq
  rcases (h u).1 hu with rfl | rfl <;> rcases (h v).1 hv with rfl | rfl
  · simp at hk'
  · rfl
  · rw [keyLt_asymm hk] at hk'; cases hk'
  · simp at hk'

/-- The settling of one pair ends where its union meets nothing. -/
theorem grown_pair {s : State} {p : Id × Id} (hp : firstPair s.iu.records = some p)
    (h1 : firstPair (absorbPair p s).iu.records = none) (hs : NoneSilent s) :
    grown s = absorbPair p s := by
  have step : grown s = settleSpans 799 (absorbPair p s) := by
    change settleSpans (799 + 1) s = _
    conv_lhs => unfold settleSpans
    rw [hp]
  rw [step, settleSpans_stands h1 ((iuRest_absorbPair p s).noneSilent hs).burntRecs]

theorem replaceContent_iu (id : Id) (a b : Content) (s : State) : (replaceContent id a b s).iu =
    { s.iu with records := setContent s.iu.records id b } := by
  unfold replaceContent
  rw [noteConflict_iu]
  rfl

/-- Folding changes of the Incident Unit the list alone. -/
theorem foldInto_iu (x y : Id) (s : State) :
    (foldInto x y s).iu = { s.iu with records := (foldInto x y s).iu.records } := by
  unfold foldInto
  split
  · dsimp only
    rw [noteConflict_iu, replaceContent_iu]
    rfl
  · rfl

theorem triggerAll_counter (l : List Id) (s : State) : (triggerAll l s).iu.counter = s.iu.counter := by
  induction l generalizing s with
  | nil => rfl
  | cons id ids ih =>
    rw [triggerAll, ih]
    unfold triggerReannounce
    split <;> rfl

theorem absorbPair_counter (p : Id × Id) (s : State) : (absorbPair p s).iu.counter = s.iu.counter := by
  unfold absorbPair
  rw [triggerAll_counter, foldInto_iu]

theorem absorbPair_li (p : Id × Id) (s : State) : (absorbPair p s).li = s.li := by
  unfold absorbPair
  rw [triggerAll_li, foldInto_li]

/-- What joining two ACTIVE records makes of the list. -/
def joinedRecs (x y : Id) (m : Content) (rs : List Rec) : List Rec :=
  setContent (setRecState rs y (.absorbed x)) x m

/-- Two ACTIVE records whose spans meet are joined, and both ids re-announced (R16). -/
theorem grown_joins {s : State} {x y : Id} {a b : Content}
    (hx : (findRec s.iu.records x).bind contentOf = some a)
    (hy : (findRec s.iu.records y).bind contentOf = some b)
    (ha : ∀ p, p ∈ actives s.iu.records ↔ p = (x, a) ∨ p = (y, b)) (hk : keyLt x y = true)
    (hm : spansMeet a b = true) (hs : NoneSilent s)
    (hj : actives (joinedRecs x y (merge a b) s.iu.records) = [(x, merge a b)])
    (hrx : resolvedContent (joinedRecs x y (merge a b) s.iu.records) x = some (merge a b))
    (hry : resolvedContent (joinedRecs x y (merge a b) s.iu.records) y = some (merge a b)) :
    (grown s).iu.records = joinedRecs x y (merge a b) s.iu.records ∧ (grown s).li = s.li ∧
      (grown s).iu.counter = s.iu.counter ∧ Pending (grown s) x ∧ Pending (grown s) y := by
  have records : (absorbPair (x, y) s).iu.records = joinedRecs x y (merge a b) s.iu.records := by
    unfold absorbPair
    rw [triggerAll_records, foldInto_records hx hy]
    rfl
  have folded := foldInto_records hx hy
  rw [grown_pair (firstPair_two ha hk hm)
    (firstPair_none (meetingPairs_single (by rw [records]; exact hj))) hs]
  refine ⟨records, absorbPair_li _ _, absorbPair_counter _ _, ?_, ?_⟩
  · exact pending_triggerAll (s := foldInto x y s) List.mem_cons_self (by rw [folded]; exact hrx)
  · exact pending_triggerAll (s := foldInto x y s) (List.mem_cons_of_mem _ List.mem_cons_self)
      (by rw [folded]; exact hry)

/-- An ABSORBED record resolves to the ACTIVE one that its link names (R13). -/
theorem resolvedContent_link {rs : List Rec} {x y : Id} {m : Content} {d : Option Demand}
    (hx : findRec rs x = some ⟨x, .active m d⟩) (hy : findRec rs y = some ⟨y, .absorbed x⟩) :
    resolvedContent rs y = some m := by
  simp [resolvedContent, resolve, maxRecords, resolveWithin, hx, hy, contentOf]

/-- Two ACTIVE records whose spans meet, the only two held, end as the ACTIVE one of lower key and the other
ABSORBED into it (R16). -/
theorem grown_two {s : State} {x y : Id} {a b : Content} {d e : Option Demand}
    (h : s.iu.records = [⟨x, .active a d⟩, ⟨y, .active b e⟩]) (hne : x ≠ y) (hm : spansMeet a b = true)
    (hs : NoneSilent s) :
    (grown s).iu.records = (if keyLt x y = true
      then [⟨x, .active (merge a b) d⟩, ⟨y, .absorbed x⟩]
      else [⟨x, .absorbed y⟩, ⟨y, .active (merge b a) e⟩]) ∧ (grown s).li = s.li ∧
      (grown s).iu.counter = s.iu.counter ∧ Pending (grown s) x ∧ Pending (grown s) y := by
  have hne' : y ≠ x := Ne.symm hne
  have fx : (findRec s.iu.records x).bind contentOf = some a := by rw [h]; simp [findRec, contentOf]
  have fy : (findRec s.iu.records y).bind contentOf = some b := by
    rw [h]; simp [findRec, contentOf, hne]
  have hmem : ∀ p, p ∈ actives s.iu.records ↔ p = (x, a) ∨ p = (y, b) := fun p => by rw [h]; simp
  by_cases hk : keyLt x y = true
  · have joined : joinedRecs x y (merge a b) s.iu.records =
        [⟨x, .active (merge a b) d⟩, ⟨y, .absorbed x⟩] := by
      rw [h]; simp [joinedRecs, setRecState, setContent, hne]
    have gx : findRec (joinedRecs x y (merge a b) s.iu.records) x = some ⟨x, .active (merge a b) d⟩ := by
      rw [joined]; simp [findRec]
    have gy : findRec (joinedRecs x y (merge a b) s.iu.records) y = some ⟨y, .absorbed x⟩ := by
      rw [joined]; simp [findRec, hne]
    obtain ⟨hr, hl, hc, px, py⟩ := grown_joins fx fy hmem hk hm hs (by rw [joined]; rfl)
      (resolvedContent_of_held (d := d) (by unfold held; rw [gx]; rfl)) (resolvedContent_link gx gy)
    exact ⟨by rw [hr, joined, if_pos hk], hl, hc, px, py⟩
  · have hk' : keyLt y x = true := (keyLt_total hne').2 (by simpa using hk)
    have hm' : spansMeet b a = true := by
      unfold spansMeet at hm ⊢
      rw [Bool.and_comm]; exact hm
    have joined : joinedRecs y x (merge b a) s.iu.records =
        [⟨x, .absorbed y⟩, ⟨y, .active (merge b a) e⟩] := by
      rw [h]; simp [joinedRecs, setRecState, setContent, hne']
    have gx : findRec (joinedRecs y x (merge b a) s.iu.records) x = some ⟨x, .absorbed y⟩ := by
      rw [joined]; simp [findRec]
    have gy : findRec (joinedRecs y x (merge b a) s.iu.records) y = some ⟨y, .active (merge b a) e⟩ := by
      rw [joined]; simp [findRec, hne]
    obtain ⟨hr, hl, hc, py, px⟩ := grown_joins fy fx (fun p => (hmem p).trans or_comm) hk' hm' hs
      (by rw [joined]; rfl)
      (resolvedContent_of_held (d := e) (by unfold held; rw [gy]; rfl)) (resolvedContent_link gy gx)
    exact ⟨by rw [hr, joined, if_neg hk], hl, hc, px, py⟩

/-- An alarm event out of reach of the one record held whose span its own meets: it declares, and the record of
higher key is absorbed (R7, R16). -/
theorem actOnAlarm_joins {s : State} {id : Id} {c : Content} {d : Option Demand}
    (h : s.iu.records = [⟨id, .active c d⟩]) (hr : withinReach s.station c = false)
    (hne : id ≠ ⟨s.station, s.iu.counter⟩) (hm : spansMeet c (declaredContent s) = true)
    (hs : NoneSilent s) :
    (actOnAlarm s).iu.records = (if keyLt id ⟨s.station, s.iu.counter⟩ = true
      then [⟨id, .active (merge c (declaredContent s)) d⟩, ⟨⟨s.station, s.iu.counter⟩, .absorbed id⟩]
      else [⟨id, .absorbed ⟨s.station, s.iu.counter⟩⟩,
        ⟨⟨s.station, s.iu.counter⟩, .active (merge (declaredContent s) c) none⟩]) ∧
      (actOnAlarm s).li = (declared s.iu.records s).li ∧
      (actOnAlarm s).iu.counter = s.iu.counter + 1#4 ∧ Pending (actOnAlarm s) id ∧
      Pending (actOnAlarm s) ⟨s.station, s.iu.counter⟩ := by
  have records : (declared s.iu.records s).iu.records =
      [⟨id, .active c d⟩, ⟨⟨s.station, s.iu.counter⟩, .active (declaredContent s) none⟩] := by
    rw [declared_records, declaredRec_eq, h, addRec_new (by simp [findRec, hne])]
    rfl
  rw [actOnAlarm_declares (by rw [h]; simpa using hr),
    declare_eq (rs := s.iu.records) (makeRoom_of_short (by rw [h]; simp))]
  obtain ⟨hrs, hl, hc, p1, p2⟩ := grown_two records hne hm
    ((iuRest_declared s.iu.records s).noneSilent hs)
  exact ⟨hrs, hl, by rw [hc, declared_iu], p1, p2⟩

/-! ## The mode an alarm event ends in -/

/-- An event that leaves an ACTIVE record ends in INCIDENT, or stays in MAINTENANCE (R28, R29). -/
theorem closeEvent_mode {b s t : State} {x : Id × Content} (k : IuRest s t)
    (hp : s.fs.maintPending = false) (hx : x ∈ actives t.iu.records)
    (hm : s.sj.mode = .quiet ∨ s.sj.mode = .incident ∨ s.sj.mode = .maintenance) :
    (closeEvent b t).sj.mode = if s.sj.mode = .maintenance then .maintenance else .incident := by
  have ha : anyActive t = true := (anyActive_iff t).2 (List.ne_nil_of_mem hx)
  rw [closeEvent_sj b (by rw [k.fs]; exact hp), followList_active ha (by rw [k.sj]; exact hm), k.sj]

/-- An alarm outside JOINING and CONFIG_FAULT acts on the list; elsewhere it is held or ignored (R10, R132). -/
theorem alarmEvent_idle {s : State} (hm : s.sj.mode = .joining ∨ s.sj.mode = .configFault) :
    alarmEvent s = { s with iu := { s.iu with
      heldAlarm := s.iu.heldAlarm || (s.sj.mode == .joining) } } := by
  unfold alarmEvent
  rcases hm with h | h
  · simp [h]
  · have : (Mode.configFault == Mode.joining) = false := rfl
    simp [h, this]

theorem Closes.heldAlarm {s t : State} (k : Closes s t) : t.iu.heldAlarm = s.iu.heldAlarm := by
  rw [k.iu]

/-- Settles O8: by the list the alarm declares the first record (`actOnAlarm_first`), extends the one held
(`actOnAlarm_extends`), is absorbed with it (`actOnAlarm_joins`) or finds no room. -/
theorem alarmEventDeclaresOrExtends : Obligations.AlarmEventDeclaresOrExtends := by
  refine ⟨fun s t h l c v w ht ha hv h70 hh hw hm hp hr hs => ?_, fun s t hd hpin => ⟨fun hm hset => ?_,
    fun hm hfull hne hfar => ?_⟩, fun s t hd hpin hm hp hs => ?_⟩
  · obtain ⟨y, yiu, ysj, yfs, ypt, yalarm, next⟩ := sustainedHeat_next ht ha hv h70 hh hw
    have first := actOnAlarm_first (s := y) (by rw [yiu, hr]) (by unfold NoneSilent; rw [ypt]; exact hs)
    rw [alarmEvent_acts (by rw [ysj, hm]; exact .inl rfl), first] at next
    have rest := iuRest_declared [] y
    have k := closes_closeEvent s (declared [] y)
    obtain ⟨r, hu, hi, hc⟩ := k.single (declared_first y)
    have hst : y.station = s.station := by unfold State.station; rw [ysj]
    refine ⟨_, r, next, hu, by rw [hi, hst, yiu], by rw [hc, declaredContent_congr ysj]; rfl, ?_, ?_, ?_,
      ?_, by rw [k.pt, rest.pt, ypt]⟩
    · rw [k.iu_eq.2.2.2.1, declared_iu, yiu]
    · rw [closeEvent_sj s (by rw [rest.fs, yfs]; exact hp),
        followList_sj (.inl (by rw [rest.sj, ysj]; exact hm)),
        anyActive_of_actives (by rw [declared_first]; rfl), rest.sj, ysj]
      rfl
    · rw [k.su, rest.su]; exact yalarm
    · rw [k.heldAlarm, rest.held, yiu]
  · rw [manualAlarm_next hd hpin, alarmEvent_idle (s := setSu _ (reachTime t s)) hm]
    refine congrArg _ (closeEvent_inert hset ?_)
    constructor <;> first | rfl | exact id
  · have next := manualAlarm_next hd hpin
    generalize hz : setSu (s.su.setInput .manualAlarm ⟨true, true, none⟩) (reachTime t s) = z at next
    have ziu : z.iu = s.iu := by rw [← hz]; rfl
    have zsj : z.sj = s.sj := by rw [← hz]; rfl
    have znow : z.now = max s.now t := by rw [← hz]; rfl
    have zst : z.station = s.station := by unfold State.station; rw [zsj]
    have refused : declare z = raiseFlag .incidentOverflow z := by
      unfold declare
      rw [ziu, makeRoom_of_full hfull hne]
    rw [alarmEvent_acts (by rw [zsj]; exact hm), actOnAlarm_declares (fun a ha => ?_), refused] at next
    · have k := closes_closeEvent s (raiseFlag .incidentOverflow z)
      refine ⟨_, next, ?_, ?_, ?_⟩
      · rw [k.bare, ← ziu]; rfl
      · rw [k.iu_eq.2.2.2.1, ← ziu]; rfl
      · rw [k.health _ (by simp), ← znow]; rfl
    · rw [zst, Bool.eq_false_iff, ne_eq, withinReach_iff]
      have := hfar a (by rw [← ziu]; exact ha)
      omega
  · intro new n
    have next := manualAlarm_next hd hpin
    generalize hz : setSu (s.su.setInput .manualAlarm ⟨true, true, none⟩) (reachTime t s) = z at next
    have ziu : z.iu = s.iu := by rw [← hz]; rfl
    have zsj : z.sj = s.sj := by rw [← hz]; rfl
    have zfs : z.fs = s.fs := by rw [← hz]; rfl
    have zli : z.li = s.li := by rw [← hz]; rfl
    have znow : z.now = max s.now t := by rw [← hz]; rfl
    have zst : z.station = s.station := by unfold State.station; rw [zsj]
    have zsil : NoneSilent z := by rw [← hz]; exact hs
    have znew : (⟨z.station, z.iu.counter⟩ : Id) = new := by rw [zst, ziu]
    have zn : declaredContent z = n := declaredContent_congr zsj
    have zmode : z.sj.mode ≠ .configFault := by rw [zsj]; rcases hm with h | h | h <;> simp [h]
    have mode {x : Id × Content} (k : x ∈ actives (actOnAlarm z).iu.records) :
        (closeEvent s (actOnAlarm z)).sj.mode =
          if s.sj.mode = .maintenance then .maintenance else .incident := by
      rw [closeEvent_mode (b := s) (iuRest_actOnAlarm z) (by rw [zfs]; exact hp) k
        (by rw [zsj]; exact hm), zsj]
    rw [alarmEvent_acts (by rw [zsj]; exact hm)] at next
    have k := closes_closeEvent s (actOnAlarm z)
    refine ⟨fun hr => ?_, fun id c d hr h1 h2 => ?_, fun id c d hr hspan horig hmeet => ?_⟩
    · have first := actOnAlarm_first (by rw [ziu, hr]) zsil
      have records := declared_first z
      rw [znew, zn] at records
      rw [first] at k next mode
      obtain ⟨r, hu, hi, hc⟩ := k.single records
      refine ⟨_, r, next, hu, hi, hc, ?_, fun hl => ?_, ?_, mode (x := (new, n)) ?_⟩
      · rw [k.iu_eq.2.2.2.1, declared_iu, ziu]
      · obtain ⟨f, hf, hb⟩ := declared_has [] zmode (by rw [zli]; exact hl)
        rw [znew, zn] at hb
        exact ⟨f, closeEvent_keeps s hf (by rw [hb]; rfl), hb⟩
      · rw [k.iu_eq.2.2.2.2.1, declared_iu, znew, znow]
        exact timeOf_stampTime_self _ _ _
      · rw [records]; simp
    · obtain ⟨records, counter, pending⟩ := actOnAlarm_extends (s := z) (by rw [ziu, hr])
        (by rw [zst, withinReach_iff]; exact ⟨h1, h2⟩) zsil
      rw [zst] at records pending
      obtain ⟨r, hu, hi, hc⟩ := k.single records
      refine ⟨_, r, next, hu, hi, hc, ?_, mode (x := (id, widened s.station c)) ?_, fun hout => ?_⟩
      · rw [k.iu_eq.2.2.2.1, counter, ziu]
      · rw [records]; simp
      · rw [k.iu_eq.1]
        exact pending (spanGrew_widened.2 (by omega))
    · have hne : id ≠ ⟨z.station, z.iu.counter⟩ := fun e => horig (by rw [e]; exact zst)
      have far : withinReach z.station c = false := by
        rw [Bool.eq_false_iff, ne_eq, withinReach_iff, zst]; omega
      have meet : spansMeet c (declaredContent z) = true := by
        rw [zn]; simp [spansMeet, n]; omega
      obtain ⟨records, li, counter, p1, p2⟩ := actOnAlarm_joins (s := z) (by rw [ziu, hr]) far hne meet zsil
      have hk : keyLt id new = true ↔ id.origin < s.station := keyLt_of_origin_ne (b := new) horig
      rw [znew, zn] at records
      simp only [hk] at records
      refine ⟨_, next, ?_, fun hl => ?_, ?_, ?_, ?_, ?_⟩
      · rw [k.bare, records]
        split <;> rfl
      · obtain ⟨f, hf, hb⟩ := declared_has z.iu.records zmode (by rw [zli]; exact hl)
        rw [← li] at hf
        rw [znew, zn] at hb
        exact ⟨f, closeEvent_keeps s hf (by rw [hb]; rfl), hb⟩
      · rw [k.iu_eq.1]; exact p1
      · rw [k.iu_eq.1, ← znew]; exact p2
      · rw [k.iu_eq.2.2.2.1, counter, ziu]
      · by_cases ho : id.origin < s.station
        · exact mode (x := (id, merge c n)) (by rw [records]; simp [new, ho])
        · exact mode (x := (new, merge n c)) (by rw [records]; simp [new, ho])

end Sys2Proof.Machine
end

section
/-! PROOFS. The end of JOINING: the mode by the list, the held alarm, the first STATUS, then MAINT (O5). -/

namespace Sys2Proof.Machine

/-! ## Slots through the closing -/

/-- A slot that is neither started nor coasting: no maintenance entry waits for it, and no target will make it
one (R64, R83). -/
def SlotQuiet (st : SlotState) : Prop := isStartingOrCoasting st = false ∧ ∀ d, st ≠ .running d

theorem SlotCloses.quiet {now : Time} {a b : Slot} (h : SlotCloses now a b) (q : SlotQuiet a.st) :
    SlotQuiet b.st := by
  obtain ⟨hs, hr⟩ := q
  cases ha : a.st with
  | stopped =>
    rcases h.resting (.inl ha) with e | e | e
    · rw [e]; exact ⟨rfl, by simp⟩
    · cases hb : b.st <;> simp [hb, isStartWait] at e
      exact ⟨rfl, by simp⟩
    · rw [e]; exact ⟨rfl, by simp⟩
  | startWait d =>
    rcases h.resting (.inr (by rw [ha]; rfl)) with e | e | e
    · rw [e]; exact ⟨rfl, by simp⟩
    · cases hb : b.st <;> simp [hb, isStartWait] at e
      exact ⟨rfl, by simp⟩
    · rw [e]; exact ⟨rfl, by simp⟩
  | starting d t => rw [ha] at hs; cases hs
  | running d => exact absurd ha (hr d)
  | coasting t => rw [ha] at hs; cases hs
  | tripped t =>
    rcases h.tripped t ha with e | e
    · rw [e]; exact ⟨rfl, by simp⟩
    · rw [e]; exact ⟨rfl, by simp⟩
  | lockedOut c => rw [(h.locked c).2 ha]; exact ⟨rfl, by simp⟩
  | localControl => rw [h.isLocal ha]; exact ⟨rfl, by simp⟩
  | absent => rw [h.absent.2 ha]; exact ⟨rfl, by simp⟩

/-- A slot that STARTS or COASTS does so through the closing (R64). -/
theorem SlotCloses.busy {now : Time} {a b : Slot} (h : SlotCloses now a b)
    (q : isStartingOrCoasting a.st = true) : isStartingOrCoasting b.st = true := by
  cases ha : a.st with
  | starting d t => rw [h.starting (by rw [ha]; rfl)]; exact q
  | coasting t => rw [h.coasting t ha]; rfl
  | _ => rw [ha] at q; cases q

/-! ## What follows an event -/

theorem governingChanged_ba (b s : State) : (governingChanged b s).ba = s.ba := by
  unfold governingChanged
  split
  · split
    · split <;> rfl
    · rfl
  · rfl
  · rfl
  · rfl

theorem followList_ba (s : State) : (followList s).ba = s.ba := by
  unfold followList; split <;> rfl

theorem planned_ba (b s : State) : (planned b s).ba = s.ba := by
  unfold planned
  rw [(lineRest_followSlot _).ba, recomputeIfDue_ba]

theorem follow_ba (b s : State) : (follow b s).ba = s.ba := by
  change (testClaim _).ba = _
  rw [(lineRest_testClaim _).ba]
  unfold enterIfReady
  split
  · rw [planned_ba]
    change (planned b _).ba = _
    rw [planned_ba, governingChanged_ba, followList_ba]
  · rw [planned_ba, governingChanged_ba, followList_ba]

/-- What the planner and the claim leave before a maintenance entry is considered. -/
def beforeEntry (b s : State) : State := planned b (governingChanged b (followList s))

theorem closes_beforeEntry (b s : State) : Closes s (beforeEntry b s) :=
  (closes_followList s).trans ((closes_governingChanged b _).trans (closes_planned b _))

theorem beforeEntry_sj (b s : State) : (beforeEntry b s).sj = (followList s).sj := by
  unfold beforeEntry; simp

theorem beforeEntry_entry (b s : State) : (beforeEntry b s).fs.maintPending = s.fs.maintPending := by
  unfold beforeEntry
  rw [planned_entry, governingChanged_fs]
  unfold followList
  split <;> rfl

/-- A maintenance entry that can be made is made (R83, R84). -/
theorem follow_enters {b s : State} (h : maintReady (beforeEntry b s) = true) :
    (follow b s).sj.mode = .maintenance ∧ (follow b s).fs.maintPending = false := by
  change (testClaim (enterIfReady (beforeEntry b s))).sj.mode = _ ∧
    (testClaim (enterIfReady (beforeEntry b s))).fs.maintPending = _
  unfold enterIfReady
  rw [if_pos h, testClaim_sj, testClaim_fs, planned_sj, planned_entry]
  exact ⟨rfl, rfl⟩

/-- A maintenance entry that cannot be made waits (R83). -/
theorem follow_waits {b s : State} (h : maintReady (beforeEntry b s) = false) :
    (follow b s).sj = (followList s).sj ∧ (follow b s).fs.maintPending = s.fs.maintPending := by
  change (testClaim (enterIfReady (beforeEntry b s))).sj = _ ∧
    (testClaim (enterIfReady (beforeEntry b s))).fs.maintPending = _
  unfold enterIfReady
  rw [h, testClaim_sj, testClaim_fs, if_neg (by simp)]
  exact ⟨beforeEntry_sj b s, beforeEntry_entry b s⟩

/-- With no entry pending what follows an event places at most a frame of the own claim twice. -/
theorem follow_length (b : State) {s : State} (h : s.fs.maintPending = false) :
    (follow b s).li.tx.length ≤ s.li.tx.length + 2 := by
  have hr : maintReady (beforeEntry b s) = false :=
    maintReady_of_not_pending (by rw [beforeEntry_entry]; exact h)
  have h1 : (beforeEntry b s).li.tx.length ≤ s.li.tx.length + 1 := by
    have := planned_length b (governingChanged b (followList s))
    rw [governingChanged_li] at this
    have hl : (followList s).li = s.li := by unfold followList; split <;> rfl
    rw [hl] at this
    exact this
  have h2 : (follow b s).li.tx = (testClaim (beforeEntry b s)).li.tx := by
    change (testClaim (enterIfReady (beforeEntry b s))).li.tx = _
    unfold enterIfReady
    rw [hr]
    rfl
  rw [h2]
  have := testClaim_length (beforeEntry b s)
  omega

/-! ## The first STATUS -/

theorem placeEarly_ba (s : State) :
    (placeEarly s).ba.presenceDue = some (s.now + presencePeriod s.sj.mode) ∧
      (placeEarly s).ba.spacingDue = some (s.now + 100000) := by
  have hb : (placeStatus s).ba = { presenceDue := some (s.now + presencePeriod s.sj.mode),
                                   spacingDue := some (s.now + statusSpacingTime), early := false } := by
    unfold placeStatus; rw [place_ba]
  unfold placeEarly
  dsimp only
  split
  · rw [hb]; exact ⟨rfl, rfl⟩
  · change (placeStatus s).ba.presenceDue = _ ∧ (placeStatus s).ba.spacingDue = _
    rw [hb]; exact ⟨rfl, rfl⟩

theorem placeEarly_tx (s : State) : (placeEarly s).li.tx = (placeStatus s).li.tx := by
  unfold placeEarly
  dsimp only
  split <;> rfl

theorem placeEarly_has (s : State) (hm : s.sj.mode ≠ .configFault) (hl : s.li.tx.length < 10) :
    ∃ f ∈ (placeEarly s).li.tx, bodyClass f.body = 2 := by
  obtain ⟨f, hf, hb⟩ := placeStatus_has s hm hl
  exact ⟨f, by rw [placeEarly_tx]; exact hf, by rw [hb]; rfl⟩

theorem placeEarly_fs (s : State) : (placeEarly s).fs = s.fs := by
  have hs : (placeStatus s).fs = s.fs := by unfold placeStatus; rw [place_fs]
  unfold placeEarly
  dsimp only
  split <;> exact hs

/-- An early STATUS asked for while the spacing timer runs is held (R144). -/
theorem requestEarly_spaced (b : State) {s : State} {t : Time} (h : s.ba.spacingDue = some t) :
    ∃ e, requestEarly b s = { s with ba := { s.ba with early := e } } := by
  unfold requestEarly
  split
  · split
    · exact ⟨s.ba.early, rfl⟩
    · rw [h]; exact ⟨true, rfl⟩
  · exact ⟨s.ba.early, rfl⟩

/-! ## The end of JOINING -/

theorem joinTimerExpiry_next {s : State} {t : Time} (h : s.sj.joinDue = some t) :
    exec .joinTimerExpiry s = .next (closeEvent (joined t s) (maintAtJoin (joined t s))) := by
  change execJoinTimerExpiry s = _
  unfold execJoinTimerExpiry
  rw [h]
  rfl

/-- The mode that the list gives (R28, R170). -/
def listMode (s : State) : Mode := if anyActive s then .incident else .quiet

theorem listMode_cases (s : State) : listMode s = .quiet ∨ listMode s = .incident := by
  unfold listMode
  cases anyActive s <;> simp

theorem presencePeriod_listMode (s : State) :
    presencePeriod (listMode s) = if anyActive s then 1000000 else 2000000 := by
  unfold listMode
  cases anyActive s <;> rfl

/-- The state in which phase 1 leaves the station: its mode by the list, its join timer stopped (R170). -/
def modeTaken (t : Time) (s : State) : State :=
  { reachTime t s with sj := { s.sj with mode := listMode s, joinDue := none } }

theorem leaveJoining_plain {s : State} {t : Time} (h : s.iu.heldAlarm = false) :
    leaveJoining (reachTime t s) = modeTaken t s := by
  unfold leaveJoining
  dsimp only
  rw [if_neg (by change ¬ (s.iu.heldAlarm = true); simp [h])]
  rfl

theorem leaveJoining_alarm {s : State} {t : Time} (h : s.iu.heldAlarm = true) :
    leaveJoining (reachTime t s) =
      actOnAlarm { modeTaken t s with iu := { s.iu with heldAlarm := false } } := by
  unfold leaveJoining
  dsimp only
  rw [if_pos (by exact h)]
  rfl

/-- How the end of JOINING leaves the station that phases 1 and 2 took to `a` (R170). -/
structure JoinedFrom (a u : State) : Prop where
  closes : Closes a u
  settled : Settled u
  sj : u.sj = { a.sj with mode := listMode a }
  entry : u.fs.maintPending = false
  presence : u.ba.presenceDue = some (a.now + if anyActive a then 1000000 else 2000000)
  spacing : u.ba.spacingDue = some (a.now + 100000)
  status : a.li.tx.length < 8 → ∃ f ∈ u.li.tx, bodyClass f.body = 2

/-- Phases 3 and 4: the recompute and the first STATUS (R143, R170). -/
theorem joined_from {s a : State} {t : Time} (ha : leaveJoining (reachTime t s) = a)
    (hm : a.sj.mode = .quiet ∨ a.sj.mode = .incident) (hp : a.fs.maintPending = false) :
    JoinedFrom a (joined t s) := by
  have hj : joined t s = placeEarly (follow s a) := by unfold joined; rw [ha]
  have hsj : (follow s a).sj = { a.sj with mode := listMode a } := by
    rw [follow_sj s hp, followList_sj hm]; rfl
  have k := closes_follow s a
  have hmode : (follow s a).sj.mode = listMode a := by rw [hsj]
  obtain ⟨hb1, hb2⟩ := placeEarly_ba (follow s a)
  have hw := follow_waits (b := s) (s := a)
    (maintReady_of_not_pending (by rw [beforeEntry_entry]; exact hp))
  rw [hj]
  constructor
  · exact k.trans (closes_placeEarly _)
  · exact settled_placeEarly (settled_follow s a)
  · rw [placeEarly_sj, hsj]
  · rw [placeEarly_fs, hw.2, hp]
  · rw [hb1, hmode, presencePeriod_listMode, k.now]
  · rw [hb2, k.now]
  · intro hl
    refine placeEarly_has _ ?_ ?_
    · rw [hmode]; rcases listMode_cases a with e | e <;> simp [e]
    · have := follow_length s hp
      omega

theorem maintAtJoin_off {u : State} (h : u.su.maint.level = false) : maintAtJoin u = u := by
  unfold maintAtJoin; rw [h]; rfl

theorem maintAtJoin_on {u : State} (h : u.su.maint.level = true) : maintAtJoin u = pendMaintenance u := by
  unfold maintAtJoin; rw [h]; rfl

/-- MAINT released: the first STATUS ends the event (R170). -/
theorem join_off {s a : State} {t : Time} (hd : s.sj.joinDue = some t)
    (j : JoinedFrom a (joined t s)) (hl : a.su.maint.level = false) :
    exec .joinTimerExpiry s = .next (joined t s) := by
  rw [joinTimerExpiry_next hd, maintAtJoin_off (by rw [j.closes.su]; exact hl), closeEvent_self j.settled]

/-- What MAINT, taken last, leaves of the first STATUS and the timers (log 31). -/
theorem maint_closing {u : State} {t : Time} (h : u.ba.spacingDue = some t) :
    (closeEvent u (pendMaintenance u)).ba.presenceDue = u.ba.presenceDue ∧
      (closeEvent u (pendMaintenance u)).ba.spacingDue = u.ba.spacingDue ∧
      (closeEvent u (pendMaintenance u)).sj = (follow u (pendMaintenance u)).sj ∧
      (closeEvent u (pendMaintenance u)).fs = (follow u (pendMaintenance u)).fs ∧
      ∀ f ∈ u.li.tx, bodyClass f.body = 2 → f ∈ (closeEvent u (pendMaintenance u)).li.tx := by
  have hba : (follow u (pendMaintenance u)).ba = u.ba := follow_ba u (pendMaintenance u)
  obtain ⟨e, he⟩ := requestEarly_spaced u (s := follow u (pendMaintenance u)) (by rw [hba]; exact h)
  unfold closeEvent
  rw [he, hba]
  exact ⟨rfl, rfl, rfl, rfl, fun f hf h2 => follow_keeps u (s := pendMaintenance u) hf (by simp [h2])⟩

/-- Settles O5: phases 1 and 2 are `leaveJoining_plain` and `leaveJoining_alarm`, the first STATUS is
`joined_from`, and MAINT enters or waits by `follow_enters` and `follow_waits`. -/
theorem joinEndTakesTheFirstMode : Obligations.JoinEndTakesTheFirstMode := by
  refine ⟨fun s t hd hh hl hp => ?_, fun s t hd hh hl hp hr hs => ?_, fun s t hd hh hl hp => ?_⟩
  · have j := joined_from (t := t) (leaveJoining_plain hh) (listMode_cases s) hp
    have hb := j.closes.actives
    exact ⟨_, join_off hd j hl, j.sj, j.closes.now, j.presence, j.spacing, j.status, j.closes.su,
      j.closes.pt, hb, j.closes.iu⟩
  · intro c
    have inactive : anyActive s = false := by
      unfold anyActive; rw [hr]; rfl
    have ha := leaveJoining_alarm (t := t) hh
    generalize hy : ({ modeTaken t s with iu := { s.iu with heldAlarm := false } } : State) = y at ha
    have ysj : y.sj = { s.sj with mode := .quiet, joinDue := none } := by
      rw [← hy]; change ({ s.sj with mode := listMode s, joinDue := _ } : Sj) = _
      unfold listMode; rw [inactive]; rfl
    have yst : y.station = s.station := by rw [← hy]; rfl
    have yc : declaredContent y = c := by rw [← hy]; rfl
    have ycounter : y.iu.counter = s.iu.counter := by rw [← hy]
    have ynow : y.now = max s.now t := by rw [← hy]; rfl
    have yli : y.li = s.li := by rw [← hy]; rfl
    rw [actOnAlarm_first (by rw [← hy]; exact hr) (by rw [← hy]; exact hs)] at ha
    have records := declared_first y
    rw [yst, ycounter, yc] at records
    have rest := iuRest_declared [] y
    have act : anyActive (declared [] y) = true := anyActive_of_actives (by rw [records]; rfl)
    have j := joined_from ha (by rw [rest.sj, ysj]; exact .inl rfl)
      (by rw [rest.fs, ← hy]; exact hp)
    obtain ⟨r, hu, hi, hc⟩ := j.closes.single records
    have hlen : (declared [] y).li.tx.length ≤ s.li.tx.length + 1 := by
      rw [declared_eq, ← yli]; exact place_length _ _
    refine ⟨_, r, join_off hd j (by rw [rest.su, ← hy]; exact hl), hu, hi, hc, ?_, ?_, ?_, ?_, ?_, ?_,
      fun h7 => ⟨?_, j.status (by omega)⟩⟩
    · rw [j.closes.iu_eq.2.2.2.1, declared_iu, ycounter]
    · rw [j.closes.heldAlarm, declared_iu, ← hy]
    · rw [j.sj, rest.sj, ysj]
      unfold listMode
      rw [act]; rfl
    · rw [j.closes.now, rest.now, ynow]
    · rw [j.presence, act, rest.now, ynow]; rfl
    · rw [j.spacing, rest.now, ynow]
    · obtain ⟨f, hf, hb⟩ := declared_has [] (s := y) (by rw [ysj]; simp) (by rw [yli]; omega)
      rw [yst, ycounter, yc] at hb
      refine ⟨f, ?_, by rw [hb, hi]⟩
      have : f ∈ (placeEarly (follow s (declared [] y))).li.tx :=
        placeEarly_keeps (follow_keeps s hf (by rw [hb]; simp [bodyClass])) (by rw [hb]; rfl)
      unfold joined
      rw [ha]
      exact this
  · have j := joined_from (t := t) (leaveJoining_plain hh) (listMode_cases s) hp
    generalize hu : joined t s = u at j
    have next := joinTimerExpiry_next hd
    rw [hu, maintAtJoin_on (by rw [j.closes.su]; exact hl)] at next
    obtain ⟨presence, spacing, sj, fs, keeps⟩ := maint_closing j.spacing
    have k := closes_closeEvent u (pendMaintenance u)
    have mode : u.sj.mode = listMode s := by rw [j.sj]; rfl
    have before := closes_beforeEntry u (pendMaintenance u)
    have slots : ∀ x, SlotCloses (max s.now t) (s.slot x) ((beforeEntry u (pendMaintenance u)).slot x) :=
      fun x => (j.closes.slots x).trans (by
        have := before.slots x
        rwa [show (pendMaintenance u).now = max s.now t from j.closes.now] at this)
    have pending : (beforeEntry u (pendMaintenance u)).fs.maintPending = true := by
      rw [beforeEntry_entry]; rfl
    have bmode : (beforeEntry u (pendMaintenance u)).sj.mode = listMode s := by
      have act : anyActive (pendMaintenance u) = anyActive s := j.closes.anyActive
      have hm : u.sj.mode = .quiet ∨ u.sj.mode = .incident := by rw [mode]; exact listMode_cases s
      rw [beforeEntry_sj, followList_sj (s := pendMaintenance u) hm]
      unfold listMode
      rw [act]
    refine ⟨_, next, ?_, ?_, ?_, ?_, fun h8 => ?_, fun hq => ?_, fun x hx => ?_⟩
    · rw [k.sj]; change u.sj.joinDue = _; rw [j.sj]; rfl
    · rw [k.now]; exact j.closes.now
    · rw [presence]; exact j.presence
    · rw [spacing]; exact j.spacing
    · obtain ⟨f, hf, hb⟩ := j.status h8
      exact ⟨f, keeps f hf hb, hb⟩
    · have ready : maintReady (beforeEntry u (pendMaintenance u)) = true := by
        unfold maintReady
        rw [pending, bmode, (Quad.any_eq_false _ _).2 fun x => ((slots x).quiet (hq x)).1]
        rcases listMode_cases s with e | e <;> rw [e] <;> rfl
      rw [sj, fs]
      exact follow_enters ready
    · have waits : maintReady (beforeEntry u (pendMaintenance u)) = false := by
        by_contra h
        have := maintReady_slots (by simpa using h) x
        rw [(slots x).busy hx] at this
        cases this
      have w := follow_waits waits
      rw [sj, fs, w.2, w.1, ← beforeEntry_sj u]
      exact ⟨bmode, rfl⟩

end Sys2Proof.Machine
end

section
/-! PROOFS. A STATUS received: the counter, the END answers and the divergence tests (O31). -/

namespace Sys2Proof.Machine

/-! ## The counter (R5) -/

/-- The counter that an own id makes of the counter held (R5). -/
def caughtUp (n : BitVec 4) (x : Id) : BitVec 4 := if seqOlder n (x.seq + 1#4) then x.seq + 1#4 else n

/-- The counter that the ids heard make of the one held (R5). -/
def counterAfter (s : State) (ids : List Id) : BitVec 4 :=
  (ids.filter fun x => x.origin == s.station).foldl caughtUp s.iu.counter

theorem catchUp_counter (id : Id) (s : State) : catchUp id s = { s with iu := { s.iu with
    counter := if id.origin = s.station then caughtUp s.iu.counter id else s.iu.counter } } := by
  unfold catchUp caughtUp
  by_cases h : id.origin = s.station
  · by_cases hs : seqOlder s.iu.counter (id.seq + 1#4) = true
    · simp [h, hs]
    · simp [h, hs]
  · simp [h]

theorem catchUpAll_eq (ids : List Id) (s : State) :
    catchUpAll ids s = { s with iu := { s.iu with counter := counterAfter s ids } } := by
  induction ids generalizing s with
  | nil => rfl
  | cons x xs ih =>
    have next : counterAfter (catchUp x s) xs = counterAfter s (x :: xs) := by
      rw [catchUp_counter]
      unfold counterAfter
      change List.foldl caughtUp (if x.origin = s.station then _ else _)
        (xs.filter fun x => x.origin == s.station) = _
      by_cases h : x.origin = s.station
      · simp [h]
      · simp [h]
    rw [catchUpAll, ih, next, catchUp_counter]

/-! ## The END answers (R27) -/

theorem timeOf_some {l : List IdTime} {id : Id} {t : Time} :
    timeOf l id = some t ↔ ∃ x, l.find? (fun x => x.id == id) = some x ∧ x.time = t := by
  unfold timeOf
  rw [Option.map_eq_some_iff]

/-- A time that passes a filter is still the one held for its id. -/
theorem timeOf_filter {l : List IdTime} {p : IdTime → Bool} {id : Id} {t : Time}
    (h : timeOf l id = some t) (hp : p ⟨id, t⟩ = true) : timeOf (l.filter p) id = some t := by
  obtain ⟨x, hx, rfl⟩ := timeOf_some.1 h
  have hid : x.id = id := by simpa using List.find?_some hx
  subst hid
  obtain ⟨hq, as, bs, rfl, hn⟩ := List.find?_eq_some_iff_append.1 hx
  have hpx : p x = true := hp
  refine timeOf_some.2 ⟨x, List.find?_eq_some_iff_append.2 ⟨hq, as.filter p, bs.filter p,
    by simp [hpx], fun a ha => hn a (List.mem_filter.1 ha).1⟩, rfl⟩

theorem timeOf_of_mem {l : List IdTime} (hd : (l.map IdTime.id).Nodup) {x : IdTime} (h : x ∈ l) :
    timeOf l x.id = some x.time := by
  induction l with
  | nil => cases h
  | cons y ys ih =>
    rw [List.map_cons, List.nodup_cons] at hd
    rcases List.mem_cons.1 h with rfl | h
    · simp [timeOf]
    · have hne : y.id ≠ x.id := fun e => hd.1 (e ▸ List.mem_map_of_mem h)
      have := ih hd.2 h
      unfold timeOf at this ⊢
      rwa [List.find?_cons_of_neg (by simpa using hne)]

/-- With one time for each id, what a filter leaves for an id is the time held for it. -/
theorem timeOf_of_filter {l : List IdTime} {p : IdTime → Bool} {id : Id} {t : Time}
    (hd : (l.map IdTime.id).Nodup) (h : timeOf (l.filter p) id = some t) : timeOf l id = some t := by
  obtain ⟨x, hx, rfl⟩ := timeOf_some.1 h
  have hid : x.id = id := by simpa using List.find?_some hx
  rw [← hid]
  exact timeOf_of_mem hd (List.mem_filter.1 (List.mem_of_find?_eq_some hx)).1

theorem withinRate_iff {l : List IdTime} {id : Id} {now : Time} :
    withinRate l id now = true ↔ ∃ t, timeOf l id = some t ∧ now < t + rateTime := by
  unfold withinRate
  cases timeOf l id with
  | none => simp
  | some t => simp

/-- A time within the rate stays when another id's moment is noted (R27). -/
theorem timeOf_stampTime_within {l : List IdTime} {id x : Id} {now : Time} (hx : id ≠ x)
    (h : withinRate l id now = true) : timeOf (stampTime l x now) id = timeOf l id := by
  obtain ⟨t, ht, hn⟩ := withinRate_iff.1 h
  unfold stampTime
  rw [timeOf_putTime_ne _ _ hx, ht]
  exact timeOf_filter ht (by simpa using hn)

/-- An id out of the rate stays so when another id's moment is noted (R27). -/
theorem withinRate_stampTime {l : List IdTime} {id x : Id} {now : Time} (hd : (l.map IdTime.id).Nodup)
    (hx : id ≠ x) (h : withinRate l id now = false) : withinRate (stampTime l x now) id now = false := by
  rw [Bool.eq_false_iff, ne_eq, withinRate_iff] at h ⊢
  rintro ⟨t, ht, hn⟩
  unfold stampTime at ht
  rw [timeOf_putTime_ne _ _ hx] at ht
  exact h ⟨t, timeOf_of_filter hd ht, hn⟩

/-- One mention of an id (R27). -/
def answered (id : Id) (s : State) : State :=
  if heldEnded s.iu.records id then answerEnd id s else s

theorem answerAll_cons (x : Id) (xs : List Id) (s : State) :
    answerAll (x :: xs) s = answerAll xs (answered x s) := rfl

/-- A mention changes of the Incident Unit the END answers alone. -/
theorem answered_iu (id : Id) (s : State) : (answered id s).iu =
    { s.iu with endSent := if heldEnded s.iu.records id = true ∧ withinRate s.iu.endSent id s.now = false
      then stampTime s.iu.endSent id s.now else s.iu.endSent } := by
  unfold answered answerEnd
  by_cases h : heldEnded s.iu.records id = true
  · by_cases hw : withinRate s.iu.endSent id s.now = true
    · simp [h, hw]
    · simp [h, hw, placeEnd_iu]
  · simp [h]

theorem iuRest_answered (id : Id) (s : State) : IuRest s (answered id s) := by
  unfold answered
  split
  · exact iuRest_answerEnd id s
  · exact .refl s

theorem answered_length (id : Id) (s : State) : (answered id s).li.tx.length ≤ s.li.tx.length + 1 := by
  unfold answered answerEnd
  split
  · split
    · omega
    · exact place_length (.ending id) { s with iu := { s.iu with
        endSent := stampTime s.iu.endSent id s.now } }
  · omega

theorem answerAll_iu (ids : List Id) (s : State) :
    (answerAll ids s).iu = { s.iu with endSent := (answerAll ids s).iu.endSent } := by
  induction ids generalizing s with
  | nil => rfl
  | cons x xs ih => rw [answerAll_cons, ih, answered_iu]

/-- An END for the id waits in the queue. -/
def EndWaits (id : Id) (s : State) : Prop := ∃ f ∈ s.li.tx, f.body = .ending id

/-- An id within the rate is not answered again, and its END stays (R27). -/
theorem answered_within {id : Id} {s : State} (x : Id) (h : withinRate s.iu.endSent id s.now = true) :
    timeOf (answered x s).iu.endSent id = timeOf s.iu.endSent id ∧
      (EndWaits id s → EndWaits id (answered x s)) := by
  by_cases hx : id = x
  · subst hx
    have : answered id s = s := by
      unfold answered answerEnd
      rw [if_pos h, ite_self]
    rw [this]
    exact ⟨rfl, fun w => w⟩
  · refine ⟨?_, fun ⟨f, hf, hb⟩ => ?_⟩
    · rw [answered_iu]
      dsimp only
      split
      · exact timeOf_stampTime_within hx h
      · rfl
    · unfold answered answerEnd
      split
      · split
        · exact ⟨f, hf, hb⟩
        · refine ⟨f, place_keeps (.ending x) { s with iu := { s.iu with
            endSent := stampTime s.iu.endSent x s.now } } f hf ?_ ?_, hb⟩
          · rw [hb]; simp [takesPlaceOf, bodyId, hx]
          · rw [hb]; rfl
      · exact ⟨f, hf, hb⟩

theorem answerAll_within {id : Id} {s : State} (ids : List Id)
    (h : withinRate s.iu.endSent id s.now = true) :
    timeOf (answerAll ids s).iu.endSent id = timeOf s.iu.endSent id ∧
      (EndWaits id s → EndWaits id (answerAll ids s)) := by
  induction ids generalizing s with
  | nil => exact ⟨rfl, fun w => w⟩
  | cons x xs ih =>
    obtain ⟨ht, hw⟩ := answered_within x h
    have h' : withinRate (answered x s).iu.endSent id (answered x s).now = true := by
      rw [(iuRest_answered x s).now]
      obtain ⟨t, hs, hn⟩ := withinRate_iff.1 h
      exact withinRate_iff.2 ⟨t, ht.trans hs, hn⟩
    obtain ⟨ht', hw'⟩ := ih h'
    exact ⟨ht'.trans ht, fun w => hw' (hw w)⟩

/-- An id held ENDED and out of the rate is answered at its mention (R27). -/
theorem answered_self {id : Id} {s : State} (he : heldEnded s.iu.records id = true)
    (hw : withinRate s.iu.endSent id s.now = false) : timeOf (answered id s).iu.endSent id = some s.now ∧
      (s.sj.mode ≠ .configFault → s.li.tx.length < 10 → EndWaits id (answered id s)) := by
  refine ⟨?_, fun hm hl => ?_⟩
  · rw [answered_iu]
    dsimp only
    rw [if_pos ⟨he, hw⟩]
    exact timeOf_stampTime_self _ _ _
  · have : answered id s = placeEnd id s := by
      unfold answered answerEnd
      rw [if_pos he, hw, if_neg (by simp)]
    rw [this]
    exact placeEnd_has id hm hl

theorem answerAll_head {id : Id} {s : State} (xs : List Id) (he : heldEnded s.iu.records id = true)
    (hw : withinRate s.iu.endSent id s.now = false) :
    timeOf (answerAll (id :: xs) s).iu.endSent id = some s.now ∧
      (s.sj.mode ≠ .configFault → s.li.tx.length < 10 → EndWaits id (answerAll (id :: xs) s)) := by
  obtain ⟨ht, hplace⟩ := answered_self he hw
  have rate : withinRate (answered id s).iu.endSent id (answered id s).now = true := by
    rw [(iuRest_answered id s).now]
    exact withinRate_iff.2 ⟨s.now, ht, Nat.lt_add_of_pos_right (by decide)⟩
  obtain ⟨hk, hwait⟩ := answerAll_within xs rate
  rw [answerAll_cons]
  exact ⟨hk.trans ht, fun hm hl => hwait (hplace hm hl)⟩

/-- An id held ENDED and out of the rate is answered where it is mentioned, and its END waits where the mentions
before it leave room (R27). -/
theorem answerAll_answers {id : Id} {s : State} (l r : List Id)
    (hd : (s.iu.endSent.map IdTime.id).Nodup) (he : heldEnded s.iu.records id = true)
    (hw : withinRate s.iu.endSent id s.now = false) :
    timeOf (answerAll (l ++ id :: r) s).iu.endSent id = some s.now ∧
      (s.sj.mode ≠ .configFault → s.li.tx.length + l.length < 10 →
        EndWaits id (answerAll (l ++ id :: r) s)) := by
  induction l generalizing s with
  | nil =>
    obtain ⟨ht, hplace⟩ := answerAll_head r he hw
    exact ⟨ht, fun hm hl => hplace hm (by simpa using hl)⟩
  | cons x xs ih =>
    by_cases hx : id = x
    · subst hx
      obtain ⟨ht, hplace⟩ := answerAll_head (xs ++ id :: r) he hw
      exact ⟨ht, fun hm hl => hplace hm (by omega)⟩
    · have rest := iuRest_answered x s
      have hsent : (answered x s).iu.endSent = s.iu.endSent ∨
          (answered x s).iu.endSent = stampTime s.iu.endSent x s.now := by
        rw [answered_iu]
        dsimp only
        split
        · exact .inr rfl
        · exact .inl rfl
      have hd' : ((answered x s).iu.endSent.map IdTime.id).Nodup := by
        rcases hsent with e | e
        · rw [e]; exact hd
        · rw [e]; exact stampTime_nodup hd x s.now
      have hw' : withinRate (answered x s).iu.endSent id (answered x s).now = false := by
        rw [rest.now]
        rcases hsent with e | e
        · rw [e]; exact hw
        · rw [e]; exact withinRate_stampTime hd hx hw
      have he' : heldEnded (answered x s).iu.records id = true := by rw [answered_iu]; exact he
      obtain ⟨ht, hplace⟩ := ih hd' he' hw'
      rw [List.cons_append, answerAll_cons]
      refine ⟨ht.trans (congrArg some rest.now), fun hm hl => hplace (by rw [rest.sj]; exact hm) ?_⟩
      have := answered_length x s
      rw [List.length_cons] at hl
      omega

/-! ## What a STATUS that passes the checks says (R114) -/

theorem readStatus_checked {n : Nat} {b : Octets} {st : StatusPart} (h : readStatus n b = some st) :
    govListed st.gov st.entries = true := by
  unfold readStatus at h
  split at h
  · split at h
    · split at h
      · next hc =>
        cases h
        rw [Bool.and_eq_true] at hc
        exact hc.2
      · cases h
    · cases h
  · cases h

/-- The governing id of a STATUS is one of its entries, ACTIVE (R114). -/
theorem gov_listed {st : StatusPart} (h : govListed st.gov st.entries = true) {b : GovBlock}
    (hb : st.gov = some b) : ∃ e ∈ st.entries, e.id = b.id ∧ e.state = .active := by
  rw [hb] at h
  simpa [govListed] using h

theorem mentions_eq (st : StatusPart) : mentions st =
    ((st.entries.filter fun e => e.state != .ended).map Entry.id) ++ st.gov.toList.map GovBlock.id := by
  unfold mentions
  cases st.gov with
  | none => rfl
  | some b => rfl

/-- An id mentioned as not ENDED, or as governing, is among the first mentions: those of the entries (R27). -/
theorem mentions_split {st : StatusPart} (hg : govListed st.gov st.entries = true) {e : Entry}
    (he : e ∈ st.entries) (hs : e.state ≠ .ended ∨ st.gov.map GovBlock.id = some e.id) :
    ∃ l r, mentions st = l ++ e.id :: r ∧ l.length < st.entries.length := by
  have hm : e.id ∈ (st.entries.filter fun e => e.state != .ended).map Entry.id := by
    rcases hs with hs | hs
    · exact List.mem_map_of_mem (List.mem_filter.2 ⟨he, by simpa using hs⟩)
    · obtain ⟨b, hb, hid⟩ := Option.map_eq_some_iff.1 hs
      obtain ⟨x, hx, hxi, hxs⟩ := gov_listed hg hb
      refine List.mem_map.2 ⟨x, List.mem_filter.2 ⟨hx, by simp [hxs]⟩, hxi.trans hid⟩
  obtain ⟨l, r, hlr⟩ := List.append_of_mem hm
  refine ⟨l, r ++ st.gov.toList.map GovBlock.id, ?_, ?_⟩
  · rw [mentions_eq, hlr, List.append_assoc, List.cons_append]
  · have h1 := congrArg List.length hlr
    rw [List.length_map, List.length_append, List.length_cons] at h1
    have h2 := List.length_filter_le (fun e : Entry => e.state != .ended) st.entries
    omega

/-! ## Divergence (R25) -/

/-- A re-announce that is triggered is due after its defer, or as it was (R26). -/
theorem triggerReannounce_time {id : Id} {s : State} {c : Content}
    (h : resolvedContent s.iu.records id = some c) : timeOf (triggerReannounce id s).iu.reannounce id =
      some ((timeOf s.iu.reannounce id).getD (s.now + 20000 * (1 + distance s.station c))) := by
  unfold triggerReannounce
  rw [h]
  cases ht : timeOf s.iu.reannounce id with
  | none => exact timeOf_putTime_self _ _ _
  | some t => exact ht

/-- An id that resolves to the governing record resolves to its content (R13, R18). -/
theorem resolvedContent_governing {s : State} {g : Governing} (hg : governing s = some g) {x : Id}
    (h : (resolve s.iu.records x).map Rec.id = some g.id) :
    resolvedContent s.iu.records x = some g.content := by
  obtain ⟨r, hr, hid⟩ := Option.map_eq_some_iff.1 h
  have hf := (resolve_some hr).1
  have ha := governing_active hg
  unfold held at ha
  rw [hid] at hf
  rw [hf, Option.map_some, Option.some.injEq] at ha
  unfold resolvedContent
  rw [hr, Option.bind_some]
  unfold contentOf
  rw [ha]

theorem resolve_governing {s : State} {g : Governing} (hg : governing s = some g) :
    (resolve s.iu.records g.id).map Rec.id = some g.id := by
  have hf := held_eq_some.1 (governing_active hg)
  rw [resolve_self hf (by simp)]
  rfl

section Divergence

variable {st : StatusPart} {s : State} {g : Governing} (hg : governing s = some g)
include hg

theorem statusDivergence_ended {e : Entry} (he : e ∈ st.entries) (hi : e.id = g.id)
    (hs : e.state = .ended) : statusDivergence st s = none := by
  unfold statusDivergence
  rw [hg]
  dsimp only
  rw [if_pos (List.any_eq_true.2 ⟨e, he, by simp [hi, hs]⟩)]

/-- The STATUS lists the governing record, if at all, as not ENDED. -/
theorem statusDivergence_open (hn : ∀ e ∈ st.entries, e.id = g.id → e.state ≠ .ended) :
    statusDivergence st s =
      match st.gov with
      | some b =>
        if (resolve s.iu.records b.id).map Rec.id = some g.id ∧ b.digest ≠ digest g.id g.content
        then some b.id
        else if ∃ e ∈ st.entries, e.id = g.id ∨ (resolve s.iu.records e.id).map Rec.id = some g.id
          then none else some g.id
      | none =>
        if ∃ e ∈ st.entries, e.id = g.id ∨ (resolve s.iu.records e.id).map Rec.id = some g.id
        then none else some g.id := by
  have hno : (st.entries.any fun e => e.id == g.id && e.state == .ended) = false := by
    rw [List.any_eq_false]
    intro e he
    simpa using hn e he
  unfold statusDivergence
  rw [hg]
  dsimp only
  rw [hno]
  cases st.gov with
  | none => simp
  | some b => simp

end Divergence

/-! ## What taking a STATUS changes -/

/-- The ids a STATUS carries, in the order in which the counter hears them (R5, log 35). -/
def carried (st : StatusPart) : List Id := st.gov.toList.map GovBlock.id ++ st.entries.map Entry.id

/-- The state in which the counter has heard a STATUS and its mentions have been answered (R5, R27). -/
def statusAnswered (st : StatusPart) (s : State) : State :=
  answerAll (mentions st) { s with iu := { s.iu with counter := counterAfter s (carried st) } }

theorem takeStatus_eq (st : StatusPart) (s : State) : takeStatus st s =
    match statusDivergence st (statusAnswered st s) with
    | none => statusAnswered st s
    | some id => triggerReannounce id (statusAnswered st s) := by
  obtain ⟨v, gov, es⟩ := st
  unfold takeStatus
  rw [catchUpAll_eq]
  cases gov with
  | none => exact rfl
  | some b => exact rfl

theorem statusAnswered_iu (st : StatusPart) (s : State) : (statusAnswered st s).iu = { s.iu with
    counter := counterAfter s (carried st), endSent := (statusAnswered st s).iu.endSent } := by
  unfold statusAnswered
  rw [answerAll_iu]

theorem iuRest_statusAnswered (st : StatusPart) (s : State) : IuRest s (statusAnswered st s) :=
  (iuRest_iu s _ _ _ _ _ _).trans (iuRest_answerAll _ _)

theorem statusAnswered_governing (st : StatusPart) (s : State) :
    governing (statusAnswered st s) = governing s :=
  governing_congr (by rw [(iuRest_statusAnswered st s).sj]) (by rw [statusAnswered_iu])

/-- The divergence that a STATUS shows adds a re-announce to what the END answers leave. -/
theorem takeStatus_rest (st : StatusPart) (s : State) :
    (takeStatus st s).li = (statusAnswered st s).li ∧
      (takeStatus st s).iu.counter = (statusAnswered st s).iu.counter ∧
      (takeStatus st s).iu.endSent = (statusAnswered st s).iu.endSent := by
  rw [takeStatus_eq]
  split
  · exact ⟨rfl, rfl, rfl⟩
  · refine ⟨triggerReannounce_li _ _, ?_, triggerReannounce_endSent _ _⟩
    unfold triggerReannounce
    split <;> rfl

/-- Considering a demand writes demand parts and the planner's items alone (R48 to R51). -/
theorem considerDemand_rest (p : Nat) (st : StatusPart) (s : State) : ∃ rs tp,
    considerDemand p st s = { s with iu := { s.iu with records := rs }, tp := tp } ∧
      rs.map bare = s.iu.records.map bare := by
  have written (g : Governing) (d : Demand) (tp : Tp) : ∃ rs tp',
      { writeDemand g d s with tp := tp } = { s with iu := { s.iu with records := rs }, tp := tp' } ∧
        rs.map bare = s.iu.records.map bare :=
    ⟨setDemand s.iu.records g.id (some d), tp, rfl, map_bare_setDemand _ _ _⟩
  have same : ∃ rs tp, s = { s with iu := { s.iu with records := rs }, tp := tp } ∧
      rs.map bare = s.iu.records.map bare := ⟨s.iu.records, s.tp, rfl, rfl⟩
  unfold considerDemand
  split
  · split
    · split
      · exact written _ _ _
      · split
        · exact written _ _ (writeDemand _ _ s).tp
        · exact same
    · exact same
  · exact same

/-! ## The STATUS taken from the queue -/

theorem statusReceived_next {s : State} {f : Octets} {fs : List Octets} (hrx : s.li.rx = f :: fs)
    (hc : classify s.count f = .status) (hm : s.sj.mode ≠ .configFault) : exec .statusReceived s =
      .next (closeEvent s (receiveStatus (frameSource f) (frameBody f) (takenFrom f fs s))) := by
  have h := takeFrame_handOff hrx hc (by simp) hm
  rwa [handOff_status _ (classify_valid hc (by simp)).1] at h

/-- The sender of a good STATUS is LIVE with the part it sent, and every other peer stands (R109, R115). -/
theorem storeStatus_peers {s : State} {f : Octets} (fs : List Octets) (st : StatusPart)
    (hf : frameSource f ≠ s.station) :
    peerOf (storeStatus (frameSource f) st (takenFrom f fs s)).pt (frameSource f) =
        ⟨frameSource f, .live s.now, some st, false⟩ ∧
      ∀ p, p ≠ frameSource f →
        peerOf (storeStatus (frameSource f) st (takenFrom f fs s)).pt p = peerOf s.pt p := by
  have hl : (peerOf (takenFrom f fs s).pt (frameSource f)).liveness = .live s.now := by
    rw [takenFrom_pt fs hf]
    have := peerOf_putPeer_self { peerOf s.pt (frameSource f) with
      index := frameSource f, liveness := .live s.now } s.pt
    dsimp only at this
    rw [this]
  refine ⟨?_, fun p hp => ?_⟩
  · have := peerOf_putPeer_self { peerOf (takenFrom f fs s).pt (frameSource f) with
      index := frameSource f, status := some st, stale := false } (takenFrom f fs s).pt
    exact this.trans (by dsimp only; rw [hl])
  · exact (peerOf_putPeer_ne (p := { peerOf (takenFrom f fs s).pt (frameSource f) with
      index := frameSource f, status := some st, stale := false }) hp _).trans (peerOf_takenFrom hp fs s)

/-- What a STATUS that fails a check leaves before the event is closed (R109, R114). -/
theorem badStatus_eq {s : State} {f : Octets} (fs : List Octets) (hf : frameSource f ≠ s.station) :
    raiseFlag .lineErrors (takenFrom f fs s) = { s with
      li := { s.li with rx := fs }
      health := { s.health with lineErrors := some (s.now + 60000000) }
      pt := putPeer { peerOf s.pt (frameSource f) with
        index := frameSource f, liveness := .live s.now } s.pt } := by
  have hs : takenFrom f fs s = refreshPeer (frameSource f) (setRx fs s) := if_neg hf
  rw [hs]
  rfl

/-- Settles O31: the counter is `catchUpAll_eq`, the END answers are `answerAll_within` and `answerAll_answers`,
the divergence `statusDivergence_open`; the closing leaves all of it. -/
theorem statusReceivedIsStored : Obligations.StatusReceivedIsStored := by
  refine ⟨fun s f fs st hrx hcl hm hf hread => ?_, fun s f fs hrx hcl hm hf hread => ?_⟩
  · have listed := readStatus_checked hread
    have next := statusReceived_next hrx hcl hm
    generalize hz : storeStatus (frameSource f) st (takenFrom f fs s) = z at next
    have receives : receiveStatus (frameSource f) (frameBody f) (takenFrom f fs s) =
        considerDemand (frameSource f) st (takeStatus st z) := by
      unfold receiveStatus
      rw [takenFrom_station, if_neg hf, takenFrom_count, hread, ← hz]
    obtain ⟨rs, tp, hconsider, hbare⟩ := considerDemand_rest (frameSource f) st (takeStatus st z)
    rw [receives, hconsider] at next
    have k := closes_closeEvent s { takeStatus st z with
      iu := { (takeStatus st z).iu with records := rs }, tp := tp }
    have ziu : z.iu = s.iu := by rw [← hz]; exact takenFrom_iu f fs s
    have znow : z.now = s.now := by rw [← hz]; exact takenFrom_now f fs s
    have zsj : z.sj = s.sj := by rw [← hz]; exact takenFrom_sj f fs s
    have zsu : z.su = s.su := by rw [← hz]; exact takenFrom_su f fs s
    have ztx : z.li.tx = s.li.tx := by rw [← hz]; exact takenFrom_tx f fs s
    have zrx : z.li.rx = fs := by rw [← hz]; exact takenFrom_rx f fs s
    have zst : z.station = s.station := by unfold State.station; rw [zsj]
    have zgov : governing z = governing s := governing_congr (by rw [zsj]) (by rw [ziu])
    have rest := iuRest_takeStatus st z
    have arest := iuRest_statusAnswered st z
    obtain ⟨wli, wcounter, wsent⟩ := takeStatus_rest st z
    have records : rs.map bare = s.iu.records.map bare := by rw [hbare, takeStatus_records, ziu]
    obtain ⟨self, others⟩ := storeStatus_peers fs st hf
    rw [hz] at self others
    have arecords : (statusAnswered st z).iu.records = s.iu.records := by rw [statusAnswered_iu, ziu]
    have areannounce : (statusAnswered st z).iu.reannounce = s.iu.reannounce := by
      rw [statusAnswered_iu, ziu]
    have agov := (statusAnswered_governing st z).trans zgov
    have astation : (statusAnswered st z).station = s.station := by
      unfold State.station; rw [arest.sj, zsj]
    have anow : (statusAnswered st z).now = s.now := by rw [arest.now, znow]
    have quiet (hd : statusDivergence st (statusAnswered st z) = none) :
        (takeStatus st z).iu.reannounce = s.iu.reannounce := by
      rw [takeStatus_eq, hd]; exact areannounce
    have diverges {x : Id} {g : Governing} (hg : governing s = some g)
        (hd : statusDivergence st (statusAnswered st z) = some x)
        (hx : (resolve s.iu.records x).map Rec.id = some g.id) :
        timeOf (takeStatus st z).iu.reannounce x = some ((timeOf s.iu.reannounce x).getD
          (s.now + 20000 * (1 + distance s.station g.content))) := by
      have := triggerReannounce_time (s := statusAnswered st z) (id := x)
        (by rw [arecords]; exact resolvedContent_governing hg hx)
      rw [areannounce, anow, astation] at this
      rw [takeStatus_eq, hd]
      exact this
    refine ⟨_, next, ?_, ?_, ?_, ?_, fun p hp => ?_, ?_, ?_, ?_, fun hnd e he hs hend => ?_,
      fun g hg hopen => ?_, fun e he g hg hi hs => ?_⟩
    · rw [k.rx, rest.rx, zrx]
    · rw [k.now, rest.now, znow]
    · rw [k.su, rest.su, zsu]
    · rw [k.pt, rest.pt]; exact self
    · rw [k.pt, rest.pt]; exact others p hp
    · exact ids_of_bare (k.bare.trans records)
    · rw [k.actives, ← actives_bare, records, actives_bare]
    · rw [k.iu_eq.2.2.2.1]
      change (takeStatus st z).iu.counter = _
      rw [wcounter, statusAnswered_iu]
      unfold counterAfter
      rw [zst, ziu]
      exact rfl
    · rw [k.iu_eq.2.2.1]
      change (_ → timeOf (takeStatus st z).iu.endSent _ = _) ∧
        (_ → timeOf (takeStatus st z).iu.endSent _ = _ ∧ _)
      rw [wsent, ← ziu, ← znow]
      refine ⟨fun hw => ?_, fun hw => ?_⟩
      · exact (answerAll_within (s := { z with iu := { z.iu with
          counter := counterAfter z (carried st) } }) (mentions st) hw).1
      · obtain ⟨l, r, hlr, hlen⟩ := mentions_split listed he hs
        obtain ⟨ht, hplace⟩ := answerAll_answers (s := { z with iu := { z.iu with
          counter := counterAfter z (carried st) } }) l r (by rw [ziu]; exact hnd)
          (by rw [ziu]; exact hend) hw
        rw [← hlr] at ht hplace
        refine ⟨ht, fun hroom => ?_⟩
        obtain ⟨x, hx, hb⟩ := hplace (by rw [zsj]; exact hm) (by rw [ztx]; omega)
        have hx' : x ∈ (takeStatus st z).li.tx := by rw [wli]; exact hx
        exact ⟨x, closeEvent_keeps s hx' (by rw [hb]; rfl), hb⟩
    · rw [k.iu_eq.1]
      have hd := statusDivergence_open (agov.trans hg) hopen
      rw [arecords] at hd
      refine ⟨fun b hb hh hdig => diverges hg ?_ hh, fun hno _ => diverges hg ?_ (resolve_governing hg),
        fun hdig hex => quiet ?_⟩
      · rw [hd, hb]
        exact if_pos ⟨hh, hdig⟩
      · have hnone : ¬ ∃ e ∈ st.entries, e.id = g.id ∨
            (resolve s.iu.records e.id).map Rec.id = some g.id := by
          rintro ⟨e, he, h | h⟩
          · exact (hno e he).1 h
          · exact (hno e he).2 h
        rw [hd]
        cases hb : st.gov with
        | none => exact if_neg hnone
        | some b =>
          obtain ⟨e, he, hi, -⟩ := gov_listed listed hb
          dsimp only
          rw [if_neg (fun h => (hno e he).2 (by rw [hi]; exact h.1)), if_neg hnone]
      · rw [hd]
        cases hb : st.gov with
        | none => exact if_pos hex
        | some b =>
          dsimp only
          rw [if_neg (fun h => h.2 (hdig b hb h.1)), if_pos hex]
    · rw [k.iu_eq.1]
      exact quiet (statusDivergence_ended (agov.trans hg) he hi hs)
  · have next := statusReceived_next hrx hcl hm
    have receives : receiveStatus (frameSource f) (frameBody f) (takenFrom f fs s) =
        raiseFlag .lineErrors (takenFrom f fs s) := by
      unfold receiveStatus
      rw [takenFrom_station, if_neg hf, takenFrom_count, hread]
    rw [receives, badStatus_eq fs hf] at next
    exact ⟨_, next, closes_closeEvent _ _⟩

end Sys2Proof.Machine
end

section
/-! PROOFS. Demand serials and claim keys (O33), and the preference order (O22): the stations of either side in
order, and a station's rank as its position. -/

namespace Sys2Proof.Machine

/-! ## Serials and keys (R47, R90) -/

/-- The difference of two serials, reckoned round the circle of 256 (R47). -/
theorem toNat_serial_sub (a b : BitVec 8) : (a - b).toNat = (a.toNat + 256 - b.toNat) % 256 := by
  bv_omega

theorem serialNewer_iff (a b : BitVec 8) : serialNewer a b = true ↔
    1 ≤ (a.toNat + 256 - b.toNat) % 256 ∧ (a.toNat + 256 - b.toNat) % 256 ≤ 127 := by
  unfold serialNewer
  rw [toNat_serial_sub, Bool.and_eq_true, decide_eq_true_eq, decide_eq_true_eq]

theorem keyBetter_iff (a b : Key) : keyBetter a b = true ↔ a.cls < b.cls ∨
    (a.cls = b.cls ∧ a.rank < b.rank) ∨
    (a.cls = b.cls ∧ a.rank = b.rank ∧ a.serial.toNat < b.serial.toNat) := by
  simp [keyBetter, and_or_left]

theorem Key.eq_of_fields {a b : Key} (hc : a.cls = b.cls) (hr : a.rank = b.rank)
    (hs : a.serial.toNat = b.serial.toNat) : a = b := by
  cases a; cases b
  simp_all [BitVec.toNat_inj]

/-- Settles O33: both comparisons are arithmetic on the numbers that the serials and the keys' fields stand
for. -/
theorem serialsAndClaimKeysCompare : Obligations.SerialsAndClaimKeysCompare := by
  refine ⟨fun a b => ⟨serialNewer_iff a b, ?_, ?_⟩, fun a b => ⟨keyBetter_iff a b, fun hne => ?_⟩⟩
  · rw [Bool.eq_false_iff, Bool.eq_false_iff, ne_eq, ne_eq, serialNewer_iff, serialNewer_iff,
      ← BitVec.toNat_inj]
    omega
  · rw [serialNewer_iff, serialNewer_iff]
    omega
  · rw [Bool.eq_false_iff, ne_eq, keyBetter_iff, keyBetter_iff]
    have differ : ¬ (a.cls = b.cls ∧ a.rank = b.rank ∧ a.serial.toNat = b.serial.toNat) :=
      fun ⟨hc, hr, hs⟩ => hne (Key.eq_of_fields hc hr hs)
    omega

/-! ## The preference order (R34 to R37) -/

theorem mem_stationsFrom {a n p : Nat} : p ∈ stationsFrom a n ↔ a < p ∧ p ≤ a + n := by
  unfold stationsFrom
  rw [List.mem_map]
  constructor
  · rintro ⟨i, hi, rfl⟩
    have := List.mem_range.1 hi
    omega
  · rintro ⟨h1, h2⟩
    exact ⟨p - a - 1, List.mem_range.2 (by omega), by omega⟩

theorem stationsFrom_rising (a n : Nat) : (stationsFrom a n).Pairwise (· < ·) := by
  unfold stationsFrom
  exact List.pairwise_lt_range.map _ fun i j h => by omega

/-- One station stands before another in the order of R37: both upstream and nearer, both downstream and
farther, or upstream of a downstream one. -/
def precedes (c : Content) (p q : Nat) : Prop :=
  (upstream c p = true ∧ upstream c q = true ∧ distance p c < distance q c) ∨
    (downstream c p = true ∧ downstream c q = true ∧ distance q c < distance p c) ∨
    (upstream c p = true ∧ downstream c q = true)

theorem precedes_ne {c : Content} (hc : c.lo ≤ c.hi) {p q : Nat} (h : precedes c p q) : p ≠ q := by
  rintro rfl
  rcases h with ⟨-, -, h⟩ | ⟨-, -, h⟩ | ⟨hu, hd⟩
  · exact absurd h (lt_irrefl _)
  · exact absurd h (lt_irrefl _)
  · cases hdir : c.dir <;> simp only [upstream, downstream, hdir, decide_eq_true_eq] at hu hd <;> omega

/-- The stations of a bore on either side of a span. -/
theorem mem_sideOrder {n p : Nat} {c : Content} (h1 : 1 ≤ c.lo) (hn : c.hi ≤ n) :
    p ∈ sideOrder n c ↔ (1 ≤ p ∧ p < c.lo) ∨ (c.hi < p ∧ p ≤ n) := by
  have hb : p ∈ stationsFrom 0 (c.lo - 1) ↔ 1 ≤ p ∧ p < c.lo := by rw [mem_stationsFrom]; omega
  have ha : p ∈ stationsFrom c.hi (n - c.hi) ↔ c.hi < p ∧ p ≤ n := by rw [mem_stationsFrom]; omega
  unfold sideOrder
  cases c.dir <;> simp only [List.mem_append, List.mem_reverse, ha, hb]
  exact or_comm

theorem sideOrder_ordered {n : Nat} {c : Content} (h1 : 1 ≤ c.lo) (hc : c.lo ≤ c.hi) :
    (sideOrder n c).Pairwise (precedes c) := by
  have below {p : Nat} (h : p ∈ stationsFrom 0 (c.lo - 1)) : p < c.lo := by
    have := mem_stationsFrom.1 h
    omega
  have above {p : Nat} (h : p ∈ stationsFrom c.hi (n - c.hi)) : c.hi < p := (mem_stationsFrom.1 h).1
  have near {p : Nat} (h : p < c.lo) : distance p c = c.lo - p := if_pos h
  have far {p : Nat} (h : c.hi < p) : distance p c = p - c.hi := if_neg (by omega)
  unfold sideOrder
  cases hd : c.dir with
  | towardA =>
    refine List.pairwise_append.2 ⟨(stationsFrom_rising _ _).imp_of_mem fun hp hq hlt => .inl ?_,
      (stationsFrom_rising _ _).imp_of_mem fun hp hq hlt => .inr (.inl ?_),
      fun p hp q hq => .inr (.inr ?_)⟩
    · have := above hp; have := above hq
      simp only [upstream, hd, decide_eq_true_eq, far (above hp), far (above hq)]
      omega
    · have := below hp; have := below hq
      simp only [downstream, hd, decide_eq_true_eq, near (below hp), near (below hq)]
      omega
    · simp [upstream, downstream, hd, above hp, below hq]
  | towardB =>
    refine List.pairwise_append.2 ⟨List.pairwise_reverse.2
        ((stationsFrom_rising _ _).imp_of_mem fun hq hp hlt => .inl ?_),
      List.pairwise_reverse.2 ((stationsFrom_rising _ _).imp_of_mem fun hq hp hlt => .inr (.inl ?_)),
      fun p hp q hq => .inr (.inr ?_)⟩
    · have := below hp; have := below hq
      simp only [upstream, hd, decide_eq_true_eq, near (below hp), near (below hq)]
      omega
    · have := above hp; have := above hq
      simp only [downstream, hd, decide_eq_true_eq, far (above hp), far (above hq)]
      omega
    · simp [upstream, downstream, hd, below (List.mem_reverse.1 hp), above (List.mem_reverse.1 hq)]

theorem hot_iff (t : Option Int) : tempClass t = some .hot ↔ ∃ x, t = some x ∧ 200 ≤ x := by
  cases t with
  | none => simp [tempClass]
  | some x =>
    unfold tempClass
    dsimp only
    split_ifs <;> simp <;> omega

/-- Eligibility in the handbook's terms (R34, R35). -/
theorem eligible_iff (s : State) (c : Content) (p : Nat) : eligible s c p = true ↔
    ∃ v, viewOf s p = some v ∧ (v.mode = .quiet ∨ v.mode = .incident) ∧
      ((upstream c p = true ∧ 100 ≤ distance p c * s.spacing) ∨
        (downstream c p = true ∧ 400 ≤ distance p c * s.spacing)) ∧
      ∀ t, v.temp = some t → t < 200 := by
  have cool (v : View) : tempClass v.temp ≠ some .hot ↔ ∀ t, v.temp = some t → t < 200 := by
    rw [ne_eq, hot_iff]
    push Not
    exact Iff.rfl
  unfold eligible
  cases viewOf s p with
  | none => simp
  | some v => simp [farEnough, ← cool, and_assoc]

theorem outside_of_side {c : Content} {p : Nat} (h : upstream c p = true ∨ downstream c p = true) :
    p < c.lo ∨ c.hi < p := by
  cases hd : c.dir <;> simp only [upstream, downstream, hd, decide_eq_true_eq] at h <;> omega

theorem mem_preferenceOrder {s : State} {c : Content} {p : Nat} (h1 : 1 ≤ c.lo) (hn : c.hi ≤ s.count)
    (hc : c.lo ≤ c.hi) : p ∈ preferenceOrder s c ↔ 1 ≤ p ∧ p ≤ s.count ∧ eligible s c p = true := by
  unfold preferenceOrder
  rw [List.mem_filter, mem_sideOrder h1 hn]
  refine ⟨fun ⟨h, he⟩ => ⟨by omega, by omega, he⟩, fun ⟨hp, hq, he⟩ => ⟨?_, he⟩⟩
  obtain ⟨v, -, -, hside, -⟩ := (eligible_iff s c p).1 he
  have := outside_of_side (hside.imp And.left And.left)
  omega

/-- In an order without repetition a station's rank is its position (R37). -/
theorem rankIn_iff {l : List Nat} (h : l.Nodup) (p r : Nat) : rankIn p l = some r ↔ l[r]? = some p := by
  induction l generalizing r with
  | nil => simp [rankIn]
  | cons q qs ih =>
    obtain ⟨hq, hqs⟩ := List.nodup_cons.1 h
    unfold rankIn
    cases r with
    | zero => split_ifs with e <;> simp [e]
    | succ n =>
      split_ifs with e
      · subst e
        simp only [Option.some.injEq, Nat.zero_ne_add_one, List.getElem?_cons_succ, false_iff]
        exact fun hn => hq (List.mem_of_getElem? hn)
      · simp [ih hqs]

/-- Settles O22: the order is the eligible stations of either side in the order `sideOrder` lists them. -/
theorem preferenceOrderIsR37 : Obligations.PreferenceOrderIsR37 := by
  intro s c h1 hc hn
  have ordered : (preferenceOrder s c).Pairwise (precedes c) := (sideOrder_ordered h1 hc).filter _
  have nodup : (preferenceOrder s c).Nodup := ordered.imp (precedes_ne hc)
  refine ⟨nodup, fun p => ?_, ordered, rankIn_iff nodup⟩
  rw [mem_preferenceOrder h1 hn hc, eligible_iff]

end Sys2Proof.Machine
end

section
/-! PROOFS. The planner's rules: which record governs while demand parts change, what a recompute writes, and what
the closing of an event leaves of it. -/

namespace Sys2Proof.Machine

/-! ## The governing record while demand parts change (R18, R31) -/

theorem findRec_bare (rs : List Rec) (id : Id) : findRec (rs.map bare) id = (findRec rs id).map bare := by
  unfold findRec
  rw [List.find?_map]
  have : ((fun r => r.id == id) ∘ bare) = fun r : Rec => r.id == id := by
    funext r; simp [bare_id]
  rw [this]

theorem governing_none_iff {s : State} : governing s = none ↔ ∀ id,
    governingOf s.station s.iu.records = some id → (findRec s.iu.records id).bind contentOf = none := by
  unfold governing
  cases governingOf s.station s.iu.records with
  | none => simp
  | some id =>
    simp only [Option.some.injEq, forall_eq']
    cases findRec s.iu.records id with
    | none => simp
    | some r => obtain ⟨i, st⟩ := r; cases st <;> simp [contentOf]

theorem governing_some_iff {s : State} {g : Governing} : governing s = some g ↔
    governingOf s.station s.iu.records = some g.id ∧
      (findRec s.iu.records g.id).bind contentOf = some g.content ∧
      (findRec s.iu.records g.id).bind demandHeld = g.demand := by
  constructor
  · intro h
    obtain ⟨r, hr, hst⟩ := governing_rec h
    exact ⟨governing_id h, by simp [hr, contentOf, hst], governing_demand h⟩
  · rintro ⟨hid, hc, hd⟩
    obtain ⟨r, hr, hrc⟩ := Option.bind_eq_some_iff.1 hc
    obtain ⟨d, hst⟩ := contentOf_some.1 hrc
    rw [hr, Option.bind_some, demandHeld, hst] at hd
    unfold governing
    rw [hid]
    dsimp only
    rw [hr]
    dsimp only
    rw [hst]
    exact congrArg (fun d => some (Governing.mk g.id g.content d)) hd

theorem contentOf_bare (r : Rec) : contentOf (bare r) = contentOf r := by
  cases h : r.st <;> simp [bare, contentOf, h]

theorem content_of_bare {rs qs : List Rec} (h : qs.map bare = rs.map bare) (id : Id) :
    (findRec qs id).bind contentOf = (findRec rs id).bind contentOf := by
  have plain (rs : List Rec) : (findRec (rs.map bare) id).bind contentOf = (findRec rs id).bind contentOf := by
    rw [findRec_bare]
    cases findRec rs id with
    | none => rfl
    | some r => exact contentOf_bare r
  rw [← plain qs, h, plain]

theorem governingOf_of_bare {rs qs : List Rec} (h : qs.map bare = rs.map bare) (p : Nat) :
    governingOf p qs = governingOf p rs := by
  have : actives qs = actives rs := by rw [← actives_bare qs, h, actives_bare]
  unfold governingOf
  rw [this]

section Bare

variable {s t : State} (hj : t.sj.straps = s.sj.straps)
  (hb : t.iu.records.map bare = s.iu.records.map bare)
include hj hb

/-- The same record governs while only demand parts change. -/
theorem governing_of_bare {g : Governing} (hg : governing s = some g) :
    governing t = some ⟨g.id, g.content, (findRec t.iu.records g.id).bind demandHeld⟩ := by
  obtain ⟨hid, hc, -⟩ := governing_some_iff.1 hg
  refine governing_some_iff.2 ⟨?_, ?_, rfl⟩
  · rw [← hid, governingOf_of_bare hb]
    unfold State.station
    rw [hj]
  · exact (content_of_bare hb g.id).trans hc

theorem governing_none_of_bare (hg : governing s = none) : governing t = none := by
  refine governing_none_iff.2 fun id hid => ?_
  rw [content_of_bare hb]
  refine governing_none_iff.1 hg id ?_
  rw [← hid, governingOf_of_bare hb]
  unfold State.station
  rw [hj]

end Bare

theorem Closes.straps {s t : State} (k : Closes s t) : t.sj.straps = s.sj.straps := by rw [k.sj]

/-- What follows an event leaves every demand part. -/
theorem Closes.part {s t : State} (k : Closes s t) {id : Id} {d : Demand}
    (h : (findRec s.iu.records id).bind demandHeld = some d) :
    (findRec t.iu.records id).bind demandHeld = some d := by rw [k.demand id (by rw [h]; rfl), h]

/-- What follows an event leaves the record that governs, and its demand part where it holds one. -/
theorem Closes.governing_some {s t : State} (k : Closes s t) {g : Governing} {d : Demand}
    (hg : governing s = some g) (hd : g.demand = some d) : governing t = some g := by
  have part : (findRec s.iu.records g.id).bind demandHeld = some d := (governing_demand hg).trans hd
  rw [governing_of_bare k.straps k.bare hg, k.part part, ← hd]

theorem findRec_setDemand {rs : List Rec} {id : Id} {c : Content} {d : Option Demand} (e : Option Demand)
    (h : held rs id = some (.active c d)) : findRec (setDemand rs id e) id = some ⟨id, .active c e⟩ := by
  have : held (setDemand rs id e) id = some (.active c e) := by
    rw [setDemand_eq, held_map (fun x st => if x = id then withDemand e st else st), h]
    simp [withDemand]
  exact held_eq_some.1 this

theorem writeDemand_part {s t : State} {g : Governing} (hg : governing s = some g) (d : Demand)
    (ht : t.iu.records = s.iu.records) :
    (findRec (writeDemand g d t).iu.records g.id).bind demandHeld = some d := by
  have : (writeDemand g d t).iu.records = setDemand s.iu.records g.id (some d) := by rw [← ht]; rfl
  rw [this, findRec_setDemand _ (governing_active hg)]
  rfl

theorem governing_writeDemand {s : State} {g : Governing} (hg : governing s = some g) (d : Demand) :
    governing (writeDemand g d s) = some { g with demand := some d } := by
  rw [governing_of_bare (s := s) (t := writeDemand g d s) rfl (map_bare_setDemand _ _ _) hg,
    writeDemand_part hg d rfl]

/-! ## The pace state (R40, R41) -/

@[simp] theorem setPace_now (p : Pace) (g : Governing) (s : State) : (setPace p g s).now = s.now := by
  unfold setPace enterPace
  split
  · split
    · rfl
    · dsimp only; split <;> rfl
  all_goals rfl

@[simp] theorem setPace_pace (p : Pace) (g : Governing) (s : State) : (setPace p g s).tp.pace = p := by
  unfold setPace enterPace
  split
  · split
    · assumption
    · dsimp only; split <;> rfl
  all_goals rfl

@[simp] theorem setPace_classRank (p : Pace) (g : Governing) (s : State) :
    (setPace p g s).tp.classRank = s.tp.classRank := by
  unfold setPace enterPace
  split
  · split
    · rfl
    · dsimp only; split <;> rfl
  all_goals rfl

theorem setPace_stays {g : Governing} {s : State} (h : s.tp.pace = .pace) : setPace .pace g s = s :=
  if_pos h

theorem setPace_leaves {p : Pace} (g : Governing) (s : State) (h : p ≠ .pace) :
    setPace p g s = { s with tp := { s.tp with pace := p, updateDue := none } } := by
  cases p with
  | pace => exact absurd rfl h
  | notPace => rfl
  | holding => rfl

theorem setPace_enters {g : Governing} {s : State} (h : s.tp.pace ≠ .pace) :
    setPace .pace g s = enterPace g s := if_neg h

theorem enterPace_holding {g : Governing} {d : Demand} (s : State) (h : g.demand = some d) :
    enterPace g s = { s with tp := { s.tp with pace := .pace, updateDue := some (s.now + updateTime) } } := by
  unfold enterPace
  rw [h]

theorem enterPace_creates {g : Governing} (s : State) (h : g.demand = none) :
    enterPace g s = writeDemand g ⟨s.initialD, 0#8, s.station, none⟩
      { s with tp := { s.tp with pace := .pace, updateDue := some (s.now + updateTime) } } := by
  unfold enterPace
  rw [h]
  rfl

/-! ## What a recompute writes (R38, R40, R55, R56) -/

/-- The pace state that the state calls for where `g` governs (R40). -/
def paceDue (s : State) (g : Governing) : Pace :=
  paceFor s.sj.mode g (rankIn s.station (preferenceOrder s g.content))

/-- The class and rank handed to the Claim Unit where `g` governs (R38). -/
def classRankDue (s : State) (g : Governing) : Option (Nat × Nat) :=
  classRankFor g.content s.station (rankIn s.station (preferenceOrder s g.content))

/-- The class and rank have been handed over. -/
def ranked (g : Governing) (s : State) : State :=
  { s with tp := { s.tp with classRank := classRankDue s g } }

/-- The state a recompute hands the targets in: the class and rank and the pace state have been taken. -/
def paced (g : Governing) (s : State) : State := setPace (paceDue s g) g (ranked g s)

theorem recompute_some {s : State} {g : Governing} (h : governing s = some g) :
    recompute s = handTargets (targetsFor s g.content.dir (ownShare s g)) (paced g s) := by
  unfold recompute
  rw [h]
  rfl

theorem recompute_none {s : State} (h : governing s = none) : recompute s = handTargets (.all .off)
    { s with tp := { s.tp with pace := .notPace, updateDue := none, classRank := none } } := by
  unfold recompute
  rw [h]

theorem paced_slotCtx (g : Governing) (s : State) : (paced g s).slotCtx = s.slotCtx := by
  unfold paced State.slotCtx
  rw [setPace_now, setPace_fs]
  rfl

theorem paced_slot (g : Governing) (s : State) (k : SlotNo) : (paced g s).slot k = s.slot k :=
  slot_of_fs (s := s) (setPace_fs _ g (ranked g s)) k

theorem recompute_slot (s : State) (k : SlotNo) :
    (recompute s).slot k = handTarget s.slotCtx ((recompute s).tp.targets.get k) (s.slot k) := by
  cases h : governing s with
  | none => rw [recompute_none h, handTargets_slot]; rfl
  | some g =>
    rw [recompute_some h, handTargets_slot, paced_slotCtx, paced_slot]
    rfl

theorem recompute_st (s : State) (k : SlotNo) : ((recompute s).slot k).st =
    stateOnTarget s.slotCtx ((recompute s).tp.targets.get k) (s.slot k).st := by
  rw [recompute_slot, handTarget_st]

section Recompute

variable {s : State} {g : Governing} (hg : governing s = some g)
include hg

theorem recompute_targets : (recompute s).tp.targets = targetsFor s g.content.dir (ownShare s g) := by
  rw [recompute_some hg]; rfl

theorem recompute_pace : (recompute s).tp.pace = paceDue s g := by
  rw [recompute_some hg]
  exact setPace_pace _ _ _

theorem recompute_classRank : (recompute s).tp.classRank = classRankDue s g := by
  rw [recompute_some hg]
  exact setPace_classRank _ _ _

/-- Outside PACE the update timer is stopped, and nothing else of the plan changes (R41). -/
theorem recompute_leaves (h : paceDue s g ≠ .pace) : (recompute s).iu = s.iu ∧
    (recompute s).tp.updateDue = none ∧ (recompute s).tp.changeDue = s.tp.changeDue := by
  rw [recompute_some hg, paced, setPace_leaves _ _ h]
  exact ⟨rfl, rfl, rfl⟩

/-- Staying PACE leaves both timers (R41). -/
theorem recompute_stays (h : paceDue s g = .pace) (hp : s.tp.pace = .pace) : (recompute s).iu = s.iu ∧
    (recompute s).tp.updateDue = s.tp.updateDue ∧ (recompute s).tp.changeDue = s.tp.changeDue := by
  rw [recompute_some hg, paced, h, setPace_stays (s := ranked g s) hp]
  exact ⟨rfl, rfl, rfl⟩

/-- Entering PACE over a demand part starts the update timer (R41). -/
theorem recompute_enters {d : Demand} (h : paceDue s g = .pace) (hp : s.tp.pace ≠ .pace)
    (hd : g.demand = some d) : (recompute s).iu = s.iu ∧
      (recompute s).tp.updateDue = some (s.now + updateTime) ∧
      (recompute s).tp.changeDue = s.tp.changeDue := by
  rw [recompute_some hg, paced, h, setPace_enters (s := ranked g s) hp, enterPace_holding _ hd]
  exact ⟨rfl, rfl, rfl⟩

/-- Entering PACE with no demand part makes one, and starts both timers (R40, R41, R45). -/
theorem recompute_creates (h : paceDue s g = .pace) (hp : s.tp.pace ≠ .pace) (hd : g.demand = none) :
    (findRec (recompute s).iu.records g.id).bind demandHeld = some ⟨s.initialD, 0#8, s.station, none⟩ ∧
      (recompute s).tp.updateDue = some (s.now + updateTime) ∧
      (recompute s).tp.changeDue = some (s.now + changeTime) := by
  rw [recompute_some hg, paced, h, setPace_enters (s := ranked g s) hp, enterPace_creates _ hd]
  refine ⟨writeDemand_part hg _ rfl, rfl, ?_⟩
  change (if g.demand.map Demand.d = some _ then _ else _) = _
  rw [hd]
  rfl

/-- A recompute over a demand part leaves the incident list and the change timer, and in PACE the update timer
runs on or starts. -/
theorem recompute_holding {d : Demand} (hd : g.demand = some d) : (recompute s).iu = s.iu ∧
    (recompute s).tp.changeDue = s.tp.changeDue ∧
    ((recompute s).tp.pace = .pace → (s.tp.pace = .pace ∧ (recompute s).tp.updateDue = s.tp.updateDue) ∨
      (recompute s).tp.updateDue = some (s.now + updateTime)) := by
  by_cases h : paceDue s g = .pace
  · by_cases hp : s.tp.pace = .pace
    · obtain ⟨hi, hu, hc⟩ := recompute_stays hg h hp
      exact ⟨hi, hc, fun _ => .inl ⟨hp, hu⟩⟩
    · obtain ⟨hi, hu, hc⟩ := recompute_enters hg h hp hd
      exact ⟨hi, hc, fun _ => .inr hu⟩
  · obtain ⟨hi, -, hc⟩ := recompute_leaves hg h
    exact ⟨hi, hc, fun e => absurd ((recompute_pace hg).symm.trans e) h⟩

end Recompute

/-- A recompute leaves the change timer, or starts it where a record governs (R45). -/
theorem recompute_changeDue (s : State) : (recompute s).tp.changeDue = s.tp.changeDue ∨
    (governing s ≠ none ∧ (recompute s).tp.changeDue = some (s.now + changeTime)) := by
  cases hg : governing s with
  | none => exact .inl (by rw [recompute_none hg]; rfl)
  | some g =>
    cases hd : g.demand with
    | some d => exact .inl (recompute_holding hg hd).2.1
    | none =>
      by_cases h : paceDue s g = .pace
      · by_cases hp : s.tp.pace = .pace
        · exact .inl (recompute_stays hg h hp).2.2
        · exact .inr ⟨by simp, (recompute_creates hg h hp hd).2.2⟩
      · exact .inl (recompute_leaves hg h).2.2

/-! ## What the closing leaves of the plan -/

/-- Everything the planner reads and writes stands. -/
structure PlanRest (s t : State) : Prop where
  now : t.now = s.now
  sj : t.sj = s.sj
  iu : t.iu = s.iu
  tp : t.tp = s.tp
  fs : t.fs = s.fs
  pt : t.pt = s.pt
  su : t.su = s.su

theorem PlanRest.refl (s : State) : PlanRest s s := ⟨rfl, rfl, rfl, rfl, rfl, rfl, rfl⟩

theorem PlanRest.trans {s t u : State} (h : PlanRest s t) (g : PlanRest t u) : PlanRest s u :=
  ⟨g.now.trans h.now, g.sj.trans h.sj, g.iu.trans h.iu, g.tp.trans h.tp, g.fs.trans h.fs,
    g.pt.trans h.pt, g.su.trans h.su⟩

theorem LineRest.planRest {s t : State} (h : LineRest s t) : PlanRest s t :=
  ⟨h.now, h.sj, h.iu, h.tp, h.fs, h.pt, h.su⟩

theorem planRest_placeStatus (s : State) : PlanRest s (placeStatus s) := by
  unfold placeStatus
  constructor <;> simp

theorem planRest_placeEarly (s : State) : PlanRest s (placeEarly s) := by
  unfold placeEarly
  dsimp only
  split
  · exact planRest_placeStatus s
  · exact (planRest_placeStatus s).trans ⟨rfl, rfl, rfl, rfl, rfl, rfl, rfl⟩

theorem planRest_requestEarly (b s : State) : PlanRest s (requestEarly b s) := by
  unfold requestEarly
  split
  · split
    · exact .refl s
    · split
      · exact planRest_placeEarly s
      · exact ⟨rfl, rfl, rfl, rfl, rfl, rfl, rfl⟩
  · exact .refl s

theorem planRest_closeEvent (b x : State) : PlanRest (follow b x) (closeEvent b x) :=
  planRest_requestEarly b _

/-- The state an event's recompute finds: the mode follows the list, and a change of the governing record has
been taken. -/
def beforePlan (b x : State) : State := governingChanged b (followList x)

theorem closes_beforePlan (b x : State) : Closes x (beforePlan b x) :=
  (closes_followList x).trans (closes_governingChanged b _)

theorem planRest_beforeEntry (b x : State) :
    PlanRest (recomputeIfDue b (beforePlan b x)) (beforeEntry b x) :=
  (lineRest_followSlot _).planRest

theorem planRest_followFlash (b s : State) : PlanRest s (followFlash b s) := ⟨rfl, rfl, rfl, rfl, rfl, rfl, rfl⟩

theorem planRest_follow (b x : State) : PlanRest (enterIfReady (beforeEntry b x)) (follow b x) :=
  (lineRest_testClaim _).planRest.trans (planRest_followFlash b _)

/-- A maintenance entry changes the mode, so that the planner recomputes (R56, R84). -/
theorem planRest_enters {s : State} (h : maintReady s = true) :
    PlanRest (recompute (enterMaintenance s)) (enterIfReady s) := by
  have mode : (triggerOf s).mode ≠ (triggerOf (enterMaintenance s)).mode := by
    simp only [maintReady, Bool.and_eq_true, Bool.or_eq_true, beq_iff_eq] at h
    obtain ⟨⟨-, hm | hm⟩, -⟩ := h <;> simp [triggerOf, enterMaintenance, hm]
  have due : recomputeIfDue s (enterMaintenance s) = recompute (enterMaintenance s) := by
    unfold recomputeIfDue
    rw [if_neg (by simp [enterMaintenance]), if_neg fun e => mode (congrArg Trigger.mode e.1)]
  unfold enterIfReady planned
  rw [if_pos h, due]
  exact (lineRest_followSlot _).planRest

/-- What follows an event leaves what the recompute leaves, or makes the entry that waited, and then what the
recompute for it leaves (R56, R83). -/
theorem follow_cases (b x : State) :
    (maintReady (beforeEntry b x) = false ∧ PlanRest (recomputeIfDue b (beforePlan b x)) (follow b x)) ∨
    (maintReady (beforeEntry b x) = true ∧
      PlanRest (recompute (enterMaintenance (beforeEntry b x))) (follow b x)) := by
  cases h : maintReady (beforeEntry b x) with
  | true => exact .inr ⟨rfl, (planRest_enters h).trans (planRest_follow b x)⟩
  | false =>
    have rest := planRest_follow b x
    unfold enterIfReady at rest
    rw [h, if_neg (by simp)] at rest
    exact .inl ⟨rfl, (planRest_beforeEntry b x).trans rest⟩

theorem PlanRest.slot {s t : State} (h : PlanRest s t) (k : SlotNo) : t.slot k = s.slot k := slot_of_fs h.fs k

theorem PlanRest.governing {s t : State} (h : PlanRest s t) :
    Machine.governing t = Machine.governing s := governing_congr (by rw [h.sj]) (by rw [h.iu])

theorem PlanRest.maintReady {s t : State} (h : PlanRest s t) : Machine.maintReady t = Machine.maintReady s :=
  maintReady_congr (by rw [h.sj]) (by rw [h.fs]) (by rw [h.fs])

/-- A station that some record governs lists an ACTIVE one (R28). -/
theorem anyActive_of_governing {s : State} {g : Governing} (h : governing s = some g) :
    anyActive s = true := by
  obtain ⟨c, hc, -⟩ := governingOf_mem (governing_id h)
  exact (anyActive_iff s).2 (List.ne_nil_of_mem hc)

theorem beforePlan_same {b x : State} {g h : Governing} (hb : governing b = some g)
    (hx : governing x = some h) (hi : h.id = g.id) (hc : h.content = g.content) :
    beforePlan b x = followList x := by
  have hf : governing (followList x) = some h := by
    rw [← hx]
    unfold followList
    split <;> rfl
  unfold beforePlan governingChanged
  rw [hb, hf]
  dsimp only
  rw [if_pos hi.symm, if_pos (by rw [hc])]

end Sys2Proof.Machine
end

section
/-! PROOFS. The planner's timers: the change timer and the yield hold (O21), and the pace update (O20). -/

namespace Sys2Proof.Machine

/-! ## The closing over a demand part that stands -/

@[simp] theorem followList_tp (s : State) : (followList s).tp = s.tp := by unfold followList; split <;> rfl
@[simp] theorem followList_now (s : State) : (followList s).now = s.now := by
  unfold followList; split <;> rfl

theorem followList_governing (s : State) : governing (followList s) = governing s := by
  unfold followList; split <;> rfl

theorem followList_fault (s : State) : (followList s).sj.mode = .configFault ↔ s.sj.mode = .configFault := by
  unfold followList
  split
  · rename_i h; simpa [h] using listMode_ne_fault s
  · rename_i h; simpa [h] using listMode_ne_fault s
  all_goals exact Iff.rfl

/-- The record `g` that governs with a demand part governs still when a maintenance entry is made. -/
theorem governing_entry {b x : State} {g : Governing} {d : Demand} (hg : governing x = some g)
    (hd : g.demand = some d) : governing (enterMaintenance (beforeEntry b x)) = some g :=
  (governing_congr rfl rfl).trans ((closes_beforeEntry b x).governing_some hg hd)

/-- At the moment `T` the change timer stands at `c`, and in PACE the update timer ends 5 s after `T`. -/
structure Timed (T : Time) (c : Option Time) (s : State) : Prop where
  now : s.now = T
  changeDue : s.tp.changeDue = c
  update : s.tp.pace = .pace → s.tp.updateDue = some (T + updateTime)

theorem Timed.of_rest {T : Time} {c : Option Time} {s t : State} (h : Timed T c s) (r : PlanRest s t) :
    Timed T c t := ⟨r.now.trans h.now, by rw [r.tp]; exact h.changeDue, by rw [r.tp]; exact h.update⟩

theorem Timed.recompute {T : Time} {c : Option Time} {s : State} (h : Timed T c s) {g : Governing}
    {d : Demand} (hg : governing s = some g) (hd : g.demand = some d) :
    Timed T c (Machine.recompute s) := by
  obtain ⟨-, hc, hu⟩ := recompute_holding hg hd
  refine ⟨(closes_recompute s).now.trans h.now, hc.trans h.changeDue, fun hp => ?_⟩
  rcases hu hp with ⟨hp', hu'⟩ | hu'
  · exact hu'.trans (h.update hp')
  · rw [hu', h.now]

theorem Timed.recomputeIfDue {T : Time} {c : Option Time} {s : State} (h : Timed T c s) (b : State)
    {g : Governing} {d : Demand} (hg : governing s = some g) (hd : g.demand = some d) :
    Timed T c (Machine.recomputeIfDue b s) := by
  unfold Machine.recomputeIfDue
  split
  · exact h
  · split
    · exact h
    · exact h.recompute hg hd

/-- Where the same record governs with a demand part, the closing leaves the plan's timers (R41, R45). -/
theorem Timed.follow {T : Time} {c : Option Time} {b x : State} {g h : Governing} {d : Demand}
    (k : Timed T c x) (hb : governing b = some g) (hx : governing x = some h) (hi : h.id = g.id)
    (hc : h.content = g.content) (hd : h.demand = some d) : Timed T c (Machine.follow b x) := by
  have first : Timed T c (Machine.recomputeIfDue b (beforePlan b x)) := by
    rw [beforePlan_same hb hx hi hc]
    have : Timed T c (followList x) :=
      ⟨(followList_now x).trans k.now, by rw [followList_tp]; exact k.changeDue,
        by rw [followList_tp]; exact k.update⟩
    exact this.recomputeIfDue b ((followList_governing x).trans hx) hd
  rcases follow_cases b x with ⟨-, r⟩ | ⟨-, r⟩
  · exact first.of_rest r
  · have entry := first.of_rest (planRest_beforeEntry b x)
    have : Timed T c (enterMaintenance (beforeEntry b x)) := ⟨entry.now, entry.changeDue, entry.update⟩
    exact (this.recompute (governing_entry hx hd) hd).of_rest r

/-! ## The change timer and the yield hold (R45, R51) -/

theorem paceDue_holding {s : State} {g : Governing} (h : paceDue s g = .holding) : yieldRuns g = true := by
  unfold paceDue paceFor at h
  split at h
  · cases h
  · cases h
  all_goals
    by_contra hy
    rw [if_neg hy] at h
    split at h <;> cases h

/-- The state of a record without the yield hold of its demand part. -/
def unheld : RecState → RecState
  | .active c d => .active c (d.map fun d => { d with yieldDue := none })
  | .absorbed y => .absorbed y
  | .ended n t => .ended n t

theorem removeYield_records (id : Id) (s : State) : (removeYield id s).iu.records =
    s.iu.records.map fun r => ⟨r.id, if r.id = id then unheld r.st else r.st⟩ := by
  refine List.map_congr_left fun r _ => ?_
  obtain ⟨i, st⟩ := r
  cases st with
  | active c d => cases d <;> by_cases h : i = id <;> simp [h, unheld]
  | absorbed y => simp [unheld]
  | ended n t => simp [unheld]

theorem findRec_removeYield {id : Id} {s : State} {c : Content} {d : Demand}
    (h : findRec s.iu.records id = some ⟨id, .active c (some d)⟩) :
    findRec (removeYield id s).iu.records id = some ⟨id, .active c (some { d with yieldDue := none })⟩ := by
  rw [removeYield_records, findRec_map_st (fun i st => if i = id then unheld st else st), h]
  simp [unheld]

theorem bare_removeYield (id : Id) (s : State) :
    (removeYield id s).iu.records.map bare = s.iu.records.map bare := by
  rw [removeYield_records, List.map_map]
  refine List.map_congr_left fun r _ => ?_
  obtain ⟨i, st⟩ := r
  by_cases h : i = id <;> cases st <;> simp [bare, unheld, h]

/-- A station whose governing record has lost its yield hold at this event is no longer HOLDING (R51, R56). -/
theorem follow_unholds {b x : State} {g h : Governing} {d : Demand} (hb : governing b = some g)
    (hx : governing x = some h) (hi : h.id = g.id) (hc : h.content = g.content) (hd : h.demand = some d)
    (hy : yieldRuns g = true) (hn : yieldRuns h = false) (hm : x.sj.mode ≠ .configFault) :
    (follow b x).tp.pace ≠ .holding := by
  have past {s : State} (hs : governing s = some h) : (recompute s).tp.pace ≠ .holding := by
    rw [recompute_pace hs]
    exact fun e => absurd (paceDue_holding e) (by simp [hn])
  have same := (followList_governing x).trans hx
  rcases follow_cases b x with ⟨-, r⟩ | ⟨-, r⟩
  · have ended : yieldEnded b (followList x) = true := by
      unfold yieldEnded
      rw [hb, same]
      simp [hi, hy, hn]
    rw [r.tp, beforePlan_same hb hx hi hc, recomputeIfDue,
      if_neg fun e => hm ((followList_fault x).1 e), if_neg (by simp [ended])]
    exact past same
  · rw [r.tp]
    exact past (governing_entry hx hd)

/-- Settles O21: the change timer's expiry is inert, and the end of a yield hold calls for a recompute, which
finds no hold. -/
theorem changeTimerAndYieldHoldEnd : Obligations.ChangeTimerAndYieldHoldEnd := by
  refine ⟨fun s t hs hd => ?_, fun s id c d t hf hy => ?_⟩
  · exact onTimer_inert (body := fun s => { s with tp := { s.tp with changeDue := none } }) hd hs
      ⟨rfl, rfl, rfl, rfl, rfl, rfl, rfl, fun h => h, fun h => h, rfl, rfl, rfl⟩
  · have due : yieldDueOf s.iu.records id = some t := by unfold yieldDueOf; rw [hf]; exact hy
    obtain ⟨u, hu, rfl, k, -⟩ := onTimer_closes (removeYield id) s due
    have found := findRec_removeYield (s := reachTime t s) hf
    have bare := bare_removeYield id (reachTime t s)
    refine ⟨_, hu, k.now, ?_, fun hgov hm => ?_, k.su, k.pt, k.bare.trans bare⟩
    · rw [k.demand id (by rw [found]; rfl), found]
    · obtain ⟨g, hg, rfl⟩ := Option.map_eq_some_iff.1 hgov
      have hx := governing_of_bare (s := s) (t := removeYield g.id (reachTime t s)) rfl bare hg
      rw [found] at hx
      have hgd : g.demand = some d := by rw [← governing_demand hg, hf]; rfl
      rw [(planRest_closeEvent _ _).tp]
      exact follow_unholds hg hx rfl rfl rfl (by simp [yieldRuns, hgd, hy]) rfl hm

/-! ## The figures of a pace update (R36, R42 to R46) -/

theorem stationsBeyond_eq (n : Nat) (c : Content) (p : Nat) : stationsBeyond n c p =
    if c.hi < p then (List.range (n - p)).map (fun i => p + 1 + i)
    else (List.range (p - 1)).map (fun i => p - 1 - i) := by
  unfold stationsBeyond stationsFrom
  split_ifs
  · rfl
  · refine List.ext_getElem (by simp) fun i h1 h2 => ?_
    simp only [List.length_map, List.length_range] at h2
    simp only [List.getElem_reverse, List.getElem_map, List.getElem_range, List.length_map,
      List.length_range]
    omega

theorem velocitySet_eq (s : State) (c : Content) : velocitySet s c = s.su.velocity.value.toList ++
    ((stationsBeyond s.count c s.station).filterMap fun p => (viewOf s p).bind View.vel).take 2 := by
  unfold velocitySet
  cases s.su.velocity.value <;> rfl

theorem paceError_none {s : State} {c : Content} (h : velocitySet s c = []) : paceError s c = none := by
  unfold paceError
  rw [h]

theorem paceError_some {s : State} {c : Content} (h : velocitySet s c ≠ []) : paceError s c =
    some (s.targetV - (((velocitySet s c).map (alongPush c.dir)).sum).tdiv (velocitySet s c).length) := by
  unfold paceError
  cases hv : velocitySet s c with
  | nil => exact absurd hv h
  | cons v vs => rfl

theorem weight_eq (v : View) :
    weight v = match v.temp with | some x => if x < 60 then 4 else 3 | none => 3 := by
  unfold weight tempClass
  cases v.temp with
  | none => rfl
  | some x => dsimp only; split_ifs <;> rfl

/-- A sum over the stations of an order is one over those the planner counts. -/
theorem sum_views (s : State) (f : View → Nat) (l : List Nat) :
    (l.map fun p => match viewOf s p with | none => 0 | some v => f v).sum =
      ((l.filterMap (viewOf s)).map f).sum := by
  induction l with
  | nil => rfl
  | cons p ps ih =>
    rw [List.map_cons, List.sum_cons, ih, List.filterMap_cons]
    cases viewOf s p <;> simp

theorem paceStep_eq (e : Int) :
    paceStep e = if e.natAbs ≤ 2 then 0 else max (-8) (min 12 (e.tdiv 2)) := by
  unfold paceStep
  exact if_congr (by omega) rfl rfl

theorem steppedDemand_eq (d : Nat) (step : Int) (cap : Nat) :
    (steppedDemand d step cap : Int) = max 8 (min (max 8 (cap : Int)) (d + step)) := by
  unfold steppedDemand
  omega

theorem changeRuns_iff (s : State) : changeRuns s = true ↔ ∃ x, s.tp.changeDue = some x ∧ s.now < x := by
  unfold changeRuns
  cases s.tp.changeDue <;> simp

/-- The settle test withholds the step, or lets it be taken (R44 to R46). -/
theorem updatedDemand_some {s : State} {g : Governing} {e : Int} (h : paceError s g.content = some e)
    (d : Nat) : updatedDemand s g d =
      if realisedThrust s g.content < d ∧ changeRuns s = true then d
      else steppedDemand d (paceStep e) (planCapacity s g.content) := by
  unfold updatedDemand
  rw [h]

/-- The demand part a pace update writes (R46). -/
def updatedPart (s : State) (g : Governing) : Demand :=
  { heldDemand s g with
    d := updatedDemand s g (heldDemand s g).d, serial := (heldDemand s g).serial + 1#8,
    source := s.station }

theorem paceUpdate_some {s : State} {g : Governing} (hg : governing s = some g) :
    paceUpdate s = { writeDemand g (updatedPart s g) s with
      tp := { (writeDemand g (updatedPart s g) s).tp with updateDue := some (s.now + updateTime) } } := by
  unfold paceUpdate
  rw [hg]
  rfl

/-- Settles O20: the effect writes `updatedPart`, the closing leaves it and the plan's timers. -/
theorem paceUpdateStepsTheDemand : Obligations.PaceUpdateStepsTheDemand := by
  intro s t g hu hg c code beyond readings along e w views thrust cap held
  have hgr : governing (reachTime t s) = some g := hg
  have effect := paceUpdate_some hgr
  obtain ⟨u, next, rfl, k, -⟩ := onTimer_closes paceUpdate s hu
  have hreadings : velocitySet (reachTime t s) c = readings := by
    rw [velocitySet_eq, stationsBeyond_eq]
    rfl
  have herror (h : readings ≠ []) : paceError (reachTime t s) c = some e := by
    have hlen : readings.length = along.length := (List.length_map _).symm
    rw [paceError_some (by rw [hreadings]; exact h), hreadings, hlen]
    rfl
  have hw (v : View) : weight v = w v := weight_eq v
  have hthrust : realisedThrust (reachTime t s) c = thrust := by
    have := sum_views (reachTime t s)
      (fun v => (match c.dir with | .towardA => v.runA | .towardB => v.runB) * weight v)
      (preferenceOrder (reachTime t s) c)
    rw [funext hw] at this
    unfold realisedThrust
    rw [funext hw]
    exact this
  have hcap : planCapacity (reachTime t s) c = cap := by
    have := sum_views (reachTime t s) (fun v => v.fans * weight v) (preferenceOrder (reachTime t s) c)
    rw [funext hw] at this
    unfold planCapacity capacityOf
    rw [funext hw]
    exact this
  have part : (findRec (paceUpdate (reachTime t s)).iu.records g.id).bind demandHeld =
      some (updatedPart (reachTime t s) g) := by
    rw [effect]
    exact writeDemand_part hgr _ rfl
  have hx : governing (paceUpdate (reachTime t s)) =
      some { g with demand := some (updatedPart (reachTime t s) g) } := by
    rw [← governing_writeDemand hgr, effect]
    rfl
  have timed : Timed (max s.now t) (if g.demand.map Demand.d = some (updatedPart (reachTime t s) g).d
      then s.tp.changeDue else some (max s.now t + 30000000)) (paceUpdate (reachTime t s)) := by
    rw [effect]
    exact ⟨rfl, rfl, fun _ => rfl⟩
  have timers := (timed.follow hg hx rfl rfl rfl).of_rest (planRest_closeEvent _ _)
  refine ⟨_, updatedPart (reachTime t s) g, next, k.part part, rfl, rfl, rfl, fun hr => ?_, fun hr => ⟨?_, ?_⟩,
    timers.changeDue, timers.update, timers.now, ?_, ?_, ?_⟩
  · change updatedDemand _ _ _ = _
    unfold updatedDemand
    rw [paceError_none (hreadings.trans hr)]
    rfl
  · intro hlow hrun
    change updatedDemand _ _ _ = _
    rw [updatedDemand_some (herror hr), if_pos ⟨by rw [hthrust]; exact hlow, (changeRuns_iff _).2 hrun⟩]
    rfl
  · intro hpass
    have passes : ¬ (realisedThrust (reachTime t s) g.content < (heldDemand (reachTime t s) g).d ∧
        changeRuns (reachTime t s) = true) := by
      rw [changeRuns_iff]
      rintro ⟨hlow, x, hx, hlt⟩
      rcases hpass with h | h
      · exact absurd (hthrust ▸ hlow) (not_lt.2 h)
      · exact absurd hlt (not_lt.2 (h x hx))
    change (updatedDemand _ _ _ : Int) = _
    rw [updatedDemand_some (herror hr), if_neg passes, steppedDemand_eq, paceStep_eq, hcap]
    rfl
  · rw [k.bare, effect]
    exact map_bare_setDemand _ _ _
  · rw [k.pt, effect]; rfl
  · rw [k.su, effect]; rfl

end Sys2Proof.Machine
end

section
/-! PROOFS. Adoption and yield (O32): what considering a stored STATUS makes of the governing demand part. -/

namespace Sys2Proof.Machine

/-! ## The order while slots and demand parts change -/

theorem station_congr {s t : State} (hj : t.sj = s.sj) : t.station = s.station := by
  unfold State.station; rw [hj]

theorem viewOf_congr {s t : State} (hj : t.sj = s.sj) (hp : t.pt = s.pt) {p : Nat}
    (h : p ≠ s.station) : viewOf t p = viewOf s p := by
  unfold viewOf
  rw [station_congr hj, hp, if_neg h, if_neg h]

theorem eligible_congr {s t : State} (hj : t.sj = s.sj) (hp : t.pt = s.pt) (hu : t.su = s.su) (c : Content)
    (p : Nat) : eligible t c p = eligible s c p := by
  by_cases h : p = s.station
  · unfold eligible viewOf ownView State.station State.spacing
    unfold State.station at h
    rw [hj, hu, if_pos h, if_pos h]
  · unfold eligible State.spacing
    rw [viewOf_congr hj hp h, hj]

/-- The order looks at the mode, the straps, the peers and the own temperature alone (R34 to R37). -/
theorem preferenceOrder_congr {s t : State} (hj : t.sj = s.sj) (hp : t.pt = s.pt) (hu : t.su = s.su)
    (c : Content) : preferenceOrder t c = preferenceOrder s c := by
  unfold preferenceOrder State.count
  rw [hj, funext (eligible_congr hj hp hu c)]

/-! ## Considering a demand (R48 to R51) -/

theorem ranksBefore_iff (order : List Nat) (p q : Nat) : ranksBefore order p q = true ↔
    ∃ m, rankIn p order = some m ∧ ∀ n, rankIn q order = some n → m < n := by
  unfold ranksBefore
  cases rankIn p order with
  | none => simp
  | some m => cases rankIn q order <;> simp

theorem adopts_iff (order : List Nat) (d : Demand) (p : Nat) (n : BitVec 8) :
    adopts order (some d) p n = true ↔ serialNewer n d.serial = true ∨
      (n = d.serial ∧ p ≠ d.source ∧ ranksBefore order p d.source = true) := by
  simp [adopts, and_assoc]

section Consider

variable {s : State} {st : StatusPart} {b : GovBlock} {g : Governing} {p : Nat}
  (hg : governing s = some g)
include hg

theorem considerDemand_ignores (h : ∀ b, st.gov = some b →
    b.pace = false ∨ (resolve s.iu.records b.id).map Rec.id ≠ some g.id) : considerDemand p st s = s := by
  unfold considerDemand
  rw [hg]
  cases hb : st.gov with
  | none => rfl
  | some b =>
    have : ¬ (b.pace = true ∧ (resolve s.iu.records b.id).map Rec.id = some g.id) := by
      rintro ⟨hp, hr⟩
      rcases h b hb with h | h
      · simp [hp] at h
      · exact h hr
    exact if_neg this

variable (hb : st.gov = some b) (hp : b.pace = true)
  (hr : (resolve s.iu.records b.id).map Rec.id = some g.id)
include hb hp hr

theorem considerDemand_yields (h : s.tp.pace ≠ .notPace) (hbp : betterPlaced g.content p s.station = true) :
    considerDemand p st s = yieldTo g p b s := by
  unfold considerDemand
  rw [hb, hg]
  dsimp only
  rw [if_pos ⟨hp, hr⟩, if_pos ⟨h, hbp⟩]

theorem considerDemand_stays (h : s.tp.pace = .notPace ∨ betterPlaced g.content p s.station = false) :
    considerDemand p st s = if adopts (preferenceOrder s g.content) g.demand p b.serial
      then writeDemand g (adoptedDemand g.demand p b none) s else s := by
  have : ¬ (s.tp.pace ≠ .notPace ∧ betterPlaced g.content p s.station = true) := by
    rintro ⟨h1, h2⟩
    rcases h with h | h
    · exact h1 h
    · simp [h2] at h
  unfold considerDemand
  rw [hb, hg]
  dsimp only
  rw [if_pos ⟨hp, hr⟩, if_neg this]

theorem considerDemand_adopts (h : s.tp.pace = .notPace ∨ betterPlaced g.content p s.station = false)
    (ha : adopts (preferenceOrder s g.content) g.demand p b.serial = true) :
    (findRec (considerDemand p st s).iu.records g.id).bind demandHeld =
      some (adoptedDemand g.demand p b none) := by
  rw [considerDemand_stays hg hb hp hr h, if_pos ha]
  exact writeDemand_part hg _ rfl

theorem considerDemand_stands (h : s.tp.pace = .notPace ∨ betterPlaced g.content p s.station = false)
    (ha : adopts (preferenceOrder s g.content) g.demand p b.serial = false) :
    (findRec (considerDemand p st s).iu.records g.id).bind demandHeld = g.demand := by
  rw [considerDemand_stays hg hb hp hr h, if_neg (by simp [ha])]
  exact governing_demand hg

end Consider

/-! ## The STATUS taken -/

/-- The state in which a stored STATUS is considered: Frame Dispatch has taken it, the peer's part is stored and
the Incident Unit has taken it (R115). -/
def statusStored (f : Octets) (fs : List Octets) (st : StatusPart) (s : State) : State :=
  takeStatus st (storeStatus (frameSource f) st (takenFrom f fs s))

theorem statusTaken_next {s : State} {f : Octets} {fs : List Octets} {st : StatusPart}
    (hrx : s.li.rx = f :: fs) (hc : classify s.count f = .status) (hm : s.sj.mode ≠ .configFault)
    (hf : frameSource f ≠ s.station) (hs : readStatus s.count (frameBody f) = some st) :
    exec .statusReceived s =
      .next (closeEvent s (considerDemand (frameSource f) st (statusStored f fs st s))) := by
  rw [statusReceived_next hrx hc hm]
  unfold receiveStatus
  rw [takenFrom_station, if_neg hf, takenFrom_count, hs]
  rfl

/-- Storing a STATUS leaves the list, the planner's items, the slots, the mode and the clock (R115). -/
theorem statusStored_rest (f : Octets) (fs : List Octets) (st : StatusPart) (s : State) :
    (statusStored f fs st s).sj = s.sj ∧ (statusStored f fs st s).iu.records = s.iu.records ∧
      (statusStored f fs st s).tp = s.tp ∧ (statusStored f fs st s).now = s.now ∧
      (statusStored f fs st s).fs = s.fs := by
  have rest := iuRest_takeStatus st (storeStatus (frameSource f) st (takenFrom f fs s))
  refine ⟨rest.sj.trans (takenFrom_sj f fs s), ?_, rest.tp.trans ?_, rest.now.trans (takenFrom_now f fs s),
    rest.fs.trans ?_⟩
  · unfold statusStored
    rw [takeStatus_records]
    exact congrArg Iu.records (takenFrom_iu f fs s)
  · change (takenFrom f fs s).tp = _
    rw [takenFrom_rest]
  · change (takenFrom f fs s).fs = _
    rw [takenFrom_rest]

theorem statusStored_governing (f : Octets) (fs : List Octets) (st : StatusPart) (s : State) :
    governing (statusStored f fs st s) = governing s :=
  governing_congr (by rw [(statusStored_rest f fs st s).1]) (statusStored_rest f fs st s).2.1

/-- In INCIDENT, with no entry pending, the closing leaves the mode of a state that a record governs. -/
theorem closeEvent_incident {x : State} (b : State) {g : Governing} (hg : governing x = some g)
    (hm : x.sj.mode = .incident) (he : x.fs.maintPending = false) : (closeEvent b x).sj = x.sj ∧
      PlanRest (recomputeIfDue b (beforePlan b x)) (closeEvent b x) := by
  have wait : maintReady (beforeEntry b x) = false :=
    maintReady_of_not_pending (by rw [beforeEntry_entry]; exact he)
  refine ⟨?_, ?_⟩
  · rw [(planRest_closeEvent b x).sj, (follow_waits wait).1, followList_sj (.inr hm),
      anyActive_of_governing hg, ← hm]
    rfl
  · rcases follow_cases b x with ⟨-, r⟩ | ⟨h, -⟩
    · exact r.trans (planRest_closeEvent b x)
    · simp [wait] at h

/-- The order at the end of the event is the one in which the STATUS was considered (R48). -/
theorem considered_order {s b : State} {g : Governing} {p : Nat} {st : StatusPart} (hg : governing s = some g)
    (hm : s.sj.mode = .incident) (he : s.fs.maintPending = false) :
    preferenceOrder (closeEvent b (considerDemand p st s)) g.content = preferenceOrder s g.content := by
  obtain ⟨rs, tp, hx, hbare⟩ := considerDemand_rest p st s
  have k := closes_closeEvent b (considerDemand p st s)
  rw [hx] at k ⊢
  have xgov := governing_of_bare (s := s) (t := { s with iu := { s.iu with records := rs }, tp := tp }) rfl hbare hg
  exact preferenceOrder_congr (closeEvent_incident b xgov hm he).1 k.pt k.su _

/-- While the yield hold runs the station is HOLDING, its update timer stopped (R40, R41, R51). -/
theorem recompute_yielded {s : State} {g : Governing} (hg : governing s = some g)
    (hm : s.sj.mode = .incident) (hy : yieldRuns g = true) :
    (recompute s).tp.pace = .holding ∧ (recompute s).tp.updateDue = none := by
  have due : paceDue s g = .holding := by
    unfold paceDue paceFor
    rw [hm]
    exact if_pos hy
  exact ⟨(recompute_pace hg).trans due, (recompute_leaves hg (by simp [due])).2.1⟩

/-- A yield stands through the closing (R50, R51). -/
theorem closeEvent_yields {b x : State} {g h : Governing} (hb : governing b = some g)
    (hx : governing x = some h) (hi : h.id = g.id) (hc : h.content = g.content) (hm : x.sj.mode = .incident)
    (he : x.fs.maintPending = false) (hy : yieldRuns h = true) (hp : x.tp.pace = .holding)
    (hu : x.tp.updateDue = none) :
    (closeEvent b x).tp.pace = .holding ∧ (closeEvent b x).tp.updateDue = none := by
  rw [(closeEvent_incident b hx hm he).2.tp, beforePlan_same hb hx hi hc]
  have stands : (followList x).tp.pace = .holding ∧ (followList x).tp.updateDue = none := by
    rw [followList_tp]
    exact ⟨hp, hu⟩
  unfold recomputeIfDue
  split
  · exact stands
  · split
    · exact stands
    · refine recompute_yielded ((followList_governing x).trans hx) ?_ hy
      rw [followList_sj (.inr hm), anyActive_of_governing hx]
      rfl

/-- Settles O32: `considerDemand` writes the part or leaves it (`considerDemand_yields`, `_adopts`, `_stands`,
`_ignores`), and the closing leaves what is held, and the order by which it was weighed. -/
theorem paceFlaggedStatusIsAdoptedOrYieldedTo : Obligations.PaceFlaggedStatusIsAdoptedOrYieldedTo := by
  refine ⟨fun s f fs st b g hrx hc hm he hf hs hb hp hg hr => ?_,
    fun s f fs st g d hrx hc hm hf hs hg hd hgov => ?_⟩
  · have next := statusTaken_next hrx hc (by simp [hm]) hf hs
    obtain ⟨zsj, zrec, ztp, znow, zfs⟩ := statusStored_rest f fs st s
    have zgov := (statusStored_governing f fs st s).trans hg
    rw [← zrec] at hr
    rw [← ztp, ← station_congr zsj]
    rw [← zsj] at hm
    rw [← zfs] at he
    rw [← znow]
    generalize statusStored f fs st s = z at next zgov hr hm he
    have k := closes_closeEvent s (considerDemand (frameSource f) st z)
    have order := considered_order (p := frameSource f) (st := st) (b := s) zgov hm he
    refine ⟨_, next, fun hplace hnew => k.part ?_, fun d hplace hd hold => ⟨fun hbefore => k.part ?_,
      fun hnot => k.part ?_⟩, fun hpace hbetter => ?_⟩
    · refine considerDemand_adopts zgov hb hp hr hplace ?_
      cases hd : g.demand with
      | none => rfl
      | some d => exact (adopts_iff _ d _ _).2 (.inl (hnew d hd))
    · obtain ⟨hserial, hsource, hrank⟩ := hbefore
      rw [order, ← ranksBefore_iff] at hrank
      rw [considerDemand_adopts zgov hb hp hr hplace (by
        rw [hd]; exact (adopts_iff _ d _ _).2 (.inr ⟨hserial, hsource, hrank⟩)), hd]
      rfl
    · rw [← hd]
      refine considerDemand_stands zgov hb hp hr hplace ?_
      rw [hd, Bool.eq_false_iff, ne_eq, adopts_iff]
      rintro (h | ⟨hserial, hsource, hrank⟩)
      · simp [hold] at h
      · exact hnot ⟨hserial, hsource, by rw [order, ← ranksBefore_iff]; exact hrank⟩
    · have yields := considerDemand_yields zgov hb hp hr hpace hbetter
      rw [yields]
      have part := writeDemand_part zgov
        (adoptedDemand g.demand (frameSource f) b (some (z.now + yieldTime))) rfl
      refine ⟨(closes_closeEvent s (yieldTo g (frameSource f) b z)).part part, ?_⟩
      exact closeEvent_yields hg (governing_writeDemand zgov _) rfl rfl hm he rfl rfl rfl
  · have next := statusTaken_next hrx hc hm hf hs
    have zgov := (statusStored_governing f fs st s).trans hg
    rw [considerDemand_ignores zgov (by
      rw [(statusStored_rest f fs st s).2.1]; exact hgov)] at next
    exact ⟨_, next, (closes_closeEvent s _).part ((governing_demand zgov).trans hd)⟩

end Sys2Proof.Machine
end

section
/-! PROOFS. The end of a coast and of a trip hold (O19): one slot moves, the planner recomputes where the available
fans change by it, and an entry that waited is made. -/

namespace Sys2Proof.Machine

/-! ## Counting slots -/

theorem Quad.count_eq {α : Type} (p : α → Bool) (q : Quad α) :
    q.count p = (allSlots.filter fun k => p (q.get k)).length := by
  simp only [Quad.count, allSlots, Quad.get, List.filter]
  cases p q.one <;> cases p q.two <;> cases p q.three <;> cases p q.four <;> rfl

theorem Quad.count_congr {α : Type} {p : α → Bool} {q r : Quad α}
    (h : ∀ k, p (q.get k) = p (r.get k)) : q.count p = r.count p := by
  rw [Quad.count_eq, Quad.count_eq]
  simp only [h]

/-! ## A maintenance entry (R83, R84) -/

theorem maintReady_iff (s : State) : maintReady s = true ↔ s.fs.maintPending = true ∧
    (s.sj.mode = .quiet ∨ s.sj.mode = .incident) ∧ ∀ k, isStartingOrCoasting (s.slot k).st = false := by
  have busy := Quad.any_eq_false (fun sl : Slot => isStartingOrCoasting sl.st) s.fs.slots
  simp only [maintReady, Bool.and_eq_true, Bool.or_eq_true, beq_iff_eq, Bool.not_eq_true', busy, and_assoc]
  exact Iff.rfl

theorem maintReady_of_busy {s : State} {k : SlotNo} (h : isStartingOrCoasting (s.slot k).st = true) :
    maintReady s = false := by
  rw [Bool.eq_false_iff, ne_eq, maintReady_iff]
  rintro ⟨-, -, hk⟩
  simp [hk k] at h

/-- A target leaves a slot that the entry has taken (R64, R84). -/
theorem entered_st (z : State) (k : SlotNo) :
    ((recompute (enterMaintenance z)).slot k).st = (intoLocal (z.slot k)).st := by
  have hk : (enterMaintenance z).slot k = intoLocal (z.slot k) := Quad.get_map _ _ _
  rw [recompute_st, hk]
  cases h : (z.slot k).st <;> simp [intoLocal, h]

/-- Following an event makes a slot busy only by taking a RUNNING slot's target (R64, R72). -/
theorem SlotCloses.coasts {now : Time} {a b : Slot} (h : SlotCloses now a b)
    (ha : isStartingOrCoasting a.st = false) (hb : isStartingOrCoasting b.st = true) :
    ∃ d, a.st = .running d ∧ b.st = .coasting (now + 45000000) := by
  have resting : a.st = .stopped ∨ isStartWait a.st = true → False := fun r => by
    rcases h.resting r with e | e | e
    · simp [e, isStartingOrCoasting] at hb
    · revert e hb; cases b.st <;> simp [isStartWait, isStartingOrCoasting]
    · simp [e, isStartingOrCoasting] at hb
  cases e : a.st with
  | stopped => exact (resting (.inl e)).elim
  | startWait d => exact (resting (.inr (by rw [e]; rfl))).elim
  | starting d t => simp [e, isStartingOrCoasting] at ha
  | coasting t => simp [e, isStartingOrCoasting] at ha
  | running d =>
    rcases h.running d e with f | f | f
    · simp [f, isStartingOrCoasting] at hb
    · exact ⟨d, rfl, f⟩
    · simp [f, isStartingOrCoasting] at hb
  | tripped t => rcases h.tripped t e with f | f <;> simp [f, isStartingOrCoasting] at hb
  | lockedOut c => simp [(h.locked c).2 e, isStartingOrCoasting] at hb
  | localControl => simp [h.isLocal e, isStartingOrCoasting] at hb
  | absent => simp [h.absent.2 e, isStartingOrCoasting] at hb

/-! ## One slot moves -/

/-- Slot `k` in the state `y` at the moment `t`, everything else as it was. -/
def moved (k : SlotNo) (y : SlotState) (t : Time) (s : State) : State :=
  setSlot k { s.slot k with st := y } (reachTime t s)

section Moved

variable {s : State} {k : SlotNo} {y : SlotState} {t : Time}

theorem moved_same : (moved k y t s).slot k = { s.slot k with st := y } := setSlot_slot_same _ _ _

theorem moved_ne {j : SlotNo} (h : j ≠ k) : (moved k y t s).slot j = s.slot j := setSlot_slot_ne _ _ h

theorem availableFans_moved (h : isUsable y = isUsable (s.slot k).st) :
    availableFans (moved k y t s) = availableFans s := by
  have count : (moved k y t s).fs.slots.count (fun sl => isUsable sl.st) =
      s.fs.slots.count fun sl => isUsable sl.st := Quad.count_congr fun j => by
    change isUsable ((moved k y t s).slot j).st = isUsable (s.slot j).st
    by_cases hj : j = k
    · rw [hj, moved_same, h]
    · rw [moved_ne hj]
  unfold availableFans
  rw [count]
  rfl

/-- A move that leaves the available fans calls for no recompute (R56). -/
theorem recomputeIfDue_moved (h : isUsable y = isUsable (s.slot k).st) :
    recomputeIfDue s (moved k y t s) = moved k y t s := by
  have gov : governing (moved k y t s) = governing s := governing_congr rfl rfl
  have trigger : triggerOf s = triggerOf (moved k y t s) := by
    unfold triggerOf
    rw [availableFans_moved h, gov]
    rfl
  unfold recomputeIfDue
  split
  · rfl
  · exact if_pos ⟨trigger, yieldEnded_same gov⟩

/-- The state moved to is not one that a target changes, or no recompute hands one. -/
theorem moved_stands (h : isUsable y = isUsable (s.slot k).st ∨ ∀ x r, stateOnTarget x r y = y) :
    ((recomputeIfDue s (moved k y t s)).slot k).st = y := by
  have here : ((moved k y t s).slot k).st = y := by rw [moved_same]
  rcases h with h | h
  · rw [recomputeIfDue_moved h, here]
  · unfold recomputeIfDue
    split
    · exact here
    · split
      · exact here
      · rw [recompute_st, here, h]

variable (hs : Settled s)
include hs

theorem beforePlan_moved : beforePlan s (moved k y t s) = moved k y t s := by
  have mode : ModeByList (moved k y t s) := hs.modeByList
  unfold beforePlan
  rw [followList_settled mode]
  exact governingChanged_same (governing_congr rfl rfl)

theorem planRest_moved :
    PlanRest (recomputeIfDue s (moved k y t s)) (beforeEntry s (moved k y t s)) := by
  have := planRest_beforeEntry s (moved k y t s)
  rwa [beforePlan_moved hs] at this

/-- Where no entry is made the event ends with the planner's recompute. -/
theorem moved_waits (hw : maintReady (beforeEntry s (moved k y t s)) = false) :
    PlanRest (recomputeIfDue s (moved k y t s)) (closeEvent s (moved k y t s)) := by
  rcases follow_cases s (moved k y t s) with ⟨-, r⟩ | ⟨h, -⟩
  · rw [beforePlan_moved hs] at r
    exact r.trans (planRest_closeEvent _ _)
  · simp [hw] at h

end Moved

/-- An entry that can be made takes the slots as `intoLocal` does (R84). -/
theorem closeEvent_enters {b x : State} (h : maintReady (beforeEntry b x) = true) :
    (closeEvent b x).sj.mode = .maintenance ∧ (closeEvent b x).fs.maintPending = false ∧
      ∀ k, ((closeEvent b x).slot k).st = (intoLocal ((beforeEntry b x).slot k)).st := by
  have close := planRest_closeEvent b x
  obtain ⟨hm, hp⟩ := follow_enters h
  refine ⟨by rw [close.sj, hm], by rw [close.fs, hp], fun k => ?_⟩
  rcases follow_cases b x with ⟨h', -⟩ | ⟨-, r⟩
  · simp [h] at h'
  · rw [close.slot, r.slot, entered_st]

/-! ## The end of a coast (R74, R83) -/

/-- What the end of its coast makes of a slot (R74). -/
def coastEnd (s : State) (sl : Slot) : SlotState :=
  if sl.runFb.level then .lockedOut .stuck
  else match sl.target with
    | .off => .stopped
    | .run d => if s.fs.maintPending then .stopped else .startWait d

theorem coastExpired_eq (x : SlotCtx) (sl : Slot) : coastExpired x sl =
    { sl with st := if sl.runFb.level then .lockedOut .stuck else stoppedWith x sl.target } := by
  unfold coastExpired; split <;> rfl

theorem coastExpiry_next {s : State} {k : SlotNo} {t : Time} (h : (s.slot k).st = .coasting t) :
    exec (.coastTimerExpiry k) s = .next (closeEvent s (moved k (coastEnd s (s.slot k)) t s)) := by
  have due : coastDue (s.slot k) = some t := by unfold coastDue; rw [h]
  have own : slotActs k coastExpired (reachTime t s) = moved k (coastEnd s (s.slot k)) t s := by
    unfold slotActs moved
    rw [coastExpired_eq]
    rfl
  change onTimer (coastDue (s.slot k)) (slotActs k coastExpired) s = _
  rw [due, ← own]
  rfl

/-- A slot whose coast has ended is STUCK, or usable as it was. -/
theorem coastEnd_stands {s : State} {k : SlotNo} {t : Time} (h : (s.slot k).st = .coasting t) :
    isUsable (coastEnd s (s.slot k)) = isUsable (s.slot k).st ∨
      ∀ x r, stateOnTarget x r (coastEnd s (s.slot k)) = coastEnd s (s.slot k) := by
  unfold coastEnd
  cases (s.slot k).runFb.level with
  | true => exact .inr fun x r => rfl
  | false =>
    left
    rw [h]
    cases (s.slot k).target with
    | off => rfl
    | run d => cases s.fs.maintPending <;> rfl

section CoastEnd

variable {s : State} {k : SlotNo} {t : Time} (hs : Settled s) (hk : (s.slot k).st = .coasting t)
include hs hk

/-- With no entry to make at this event the slot is in the state its coast ends with. -/
theorem coastEnd_waits (h : s.fs.maintPending = false ∨
    ∃ j, j ≠ k ∧ isStartingOrCoasting (s.slot j).st = true) :
    ((closeEvent s (moved k (coastEnd s (s.slot k)) t s)).slot k).st = coastEnd s (s.slot k) := by
  have wait : maintReady (beforeEntry s (moved k (coastEnd s (s.slot k)) t s)) = false := by
    rcases h with h | ⟨j, hj, h⟩
    · exact maintReady_of_not_pending (by rw [beforeEntry_entry]; exact h)
    · exact maintReady_of_busy (((closes_beforeEntry _ _).slots j).busy (by rw [moved_ne hj]; exact h))
  rw [(moved_waits hs wait).slot, moved_stands (coastEnd_stands hk)]

/-- The slot whose coast an entry waited for is STOPPED or STUCK when the entry is considered. -/
theorem coastEnd_pending (hp : s.fs.maintPending = true) :
    ((beforeEntry s (moved k (coastEnd s (s.slot k)) t s)).slot k).st =
      if (s.slot k).runFb.level then .lockedOut .stuck else .stopped := by
  rw [(planRest_moved hs).slot, moved_stands (coastEnd_stands hk)]
  unfold coastEnd
  cases (s.slot k).runFb.level with
  | true => rfl
  | false => cases (s.slot k).target <;> simp [hp]

/-- An entry that waited for this coast alone and waits on, waits for a RUNNING slot that lost its target to a
STUCK one (R56, R83). -/
theorem coastEnd_waits_on (hp : s.fs.maintPending = true)
    (hm : s.sj.mode = .quiet ∨ s.sj.mode = .incident)
    (hj : ∀ j, j ≠ k → isStartingOrCoasting (s.slot j).st = false)
    (hw : maintReady (beforeEntry s (moved k (coastEnd s (s.slot k)) t s)) = false) :
    (s.slot k).runFb.level = true ∧ ∃ j d, j ≠ k ∧ (s.slot j).st = .running d ∧
      ((closeEvent s (moved k (coastEnd s (s.slot k)) t s)).slot j).st =
        .coasting (max s.now t + 45000000) := by
  have close := moved_waits hs hw
  have rest := planRest_moved (y := coastEnd s (s.slot k)) (k := k) (t := t) hs
  have hbusy : ∃ j, isStartingOrCoasting
      ((beforeEntry s (moved k (coastEnd s (s.slot k)) t s)).slot j).st = true := by
    by_contra hn
    rw [Bool.eq_false_iff, ne_eq, maintReady_iff, beforeEntry_entry, rest.sj, recomputeIfDue_sj] at hw
    exact hw ⟨hp, hm, fun j => by simpa using fun e => hn ⟨j, e⟩⟩
  obtain ⟨j, hb⟩ := hbusy
  have hjk : j ≠ k := by
    rintro rfl
    rw [coastEnd_pending hs hk hp] at hb
    split at hb <;> simp [isStartingOrCoasting] at hb
  obtain ⟨d, hd, hc⟩ := ((closes_beforeEntry s (moved k (coastEnd s (s.slot k)) t s)).slots j).coasts
    (by rw [moved_ne hjk]; exact hj j hjk) hb
  rw [moved_ne hjk] at hd
  refine ⟨?_, j, d, hjk, hd, by rw [close.slot, ← rest.slot, hc]; rfl⟩
  by_contra hr
  have usable : isUsable (coastEnd s (s.slot k)) = isUsable (s.slot k).st := by
    unfold coastEnd
    rw [if_neg hr, hk]
    cases (s.slot k).target <;> simp [hp, isUsable]
  rw [rest.slot, recomputeIfDue_moved usable, moved_ne hjk] at hb
  simp [hj j hjk] at hb

end CoastEnd

/-- An entry made at the end of a coast: the slot is LOCAL unless STUCK, and a RUNNING slot is LOCAL, its drive
released (R84). -/
theorem coastEnd_enters {s : State} {k : SlotNo} {t : Time} (hs : Settled s)
    (hk : (s.slot k).st = .coasting t) (hp : s.fs.maintPending = true)
    (hr : maintReady (beforeEntry s (moved k (coastEnd s (s.slot k)) t s)) = true) :
    let u := closeEvent s (moved k (coastEnd s (s.slot k)) t s)
    u.sj.mode = .maintenance ∧ u.fs.maintPending = false ∧
      (u.slot k).st = (if (s.slot k).runFb.level then .lockedOut .stuck else .localControl) ∧
      ∀ j d, (s.slot j).st = .running d → (u.slot j).st = .localControl ∧ driveOut u j = none := by
  intro u
  obtain ⟨hm, he, hslot⟩ := closeEvent_enters hr
  refine ⟨hm, he, ?_, fun j d hj => ?_⟩
  · rw [hslot]
    have waits := coastEnd_pending hs hk hp
    cases hf : (s.slot k).runFb.level with
    | true =>
      rw [hf, if_pos rfl] at waits
      simp [intoLocal, waits]
    | false =>
      rw [hf, if_neg (by simp)] at waits
      simp [intoLocal, waits]
  · have hjk : j ≠ k := by rintro rfl; simp [hk] at hj
    have idle := ((maintReady_iff _).1 hr).2.2 j
    have isLocal : (u.slot j).st = .localControl := by
      rw [hslot]
      rcases ((closes_beforeEntry s (moved k (coastEnd s (s.slot k)) t s)).slots j).running d
        (by rw [moved_ne hjk]; exact hj) with e | e | e
      · simp [intoLocal, e]
      · simp [e, isStartingOrCoasting] at idle
      · simp [intoLocal, e]
    refine ⟨isLocal, ?_⟩
    unfold driveOut
    rw [isLocal]
    split <;> rfl

/-! ## The end of a trip hold (R78) -/

/-- What the end of its trip hold makes of a slot (R78). -/
def tripHoldEnd (s : State) (t : Time) (sl : Slot) : SlotState :=
  if sl.tripFb.level then .tripped none else .coasting (max s.now t + 45000000)

theorem tripHoldExpiry_next {s : State} {k : SlotNo} {t : Time} (h : (s.slot k).st = .tripped (some t)) :
    exec (.tripHoldExpiry k) s = .next (closeEvent s (moved k (tripHoldEnd s t (s.slot k)) t s)) := by
  have due : tripHoldDue (s.slot k) = some t := by unfold tripHoldDue; rw [h]
  have own : slotActs k tripHoldExpired (reachTime t s) = moved k (tripHoldEnd s t (s.slot k)) t s := by
    unfold slotActs moved tripHoldExpired tripHoldEnd
    have hk : (reachTime t s).slot k = s.slot k := rfl
    rw [hk]
    cases (s.slot k).tripFb.level <;> rfl
  change onTimer (tripHoldDue (s.slot k)) (slotActs k tripHoldExpired) s = _
  rw [due, ← own]
  rfl

/-- A slot whose trip hold has ended makes no entry ready: it COASTS, or is TRIPPED as before (R78, R83). -/
theorem tripHoldEnd_waits {s : State} {k : SlotNo} {t : Time} (hs : Settled s)
    (hk : (s.slot k).st = .tripped (some t)) :
    maintReady (beforeEntry s (moved k (tripHoldEnd s t (s.slot k)) t s)) = false := by
  by_cases h : (s.slot k).tripFb.level = true
  · have still : tripHoldEnd s t (s.slot k) = .tripped none := if_pos h
    have rest := planRest_moved (y := tripHoldEnd s t (s.slot k)) (k := k) (t := t) hs
    rw [recomputeIfDue_moved (by rw [still, hk]; rfl)] at rest
    rw [rest.maintReady, Bool.eq_false_iff, ne_eq, maintReady_iff]
    rintro ⟨hp, hm, hj⟩
    refine absurd ((maintReady_iff s).2 ⟨hp, hm, fun j => ?_⟩) (by simp [hs.noEntryDue])
    by_cases e : j = k
    · rw [e, hk]; rfl
    · rw [← hj j, moved_ne e]
  · refine maintReady_of_busy (k := k) (((closes_beforeEntry _ _).slots k).busy ?_)
    rw [moved_same]
    unfold tripHoldEnd
    rw [if_neg h]
    rfl

/-- Settles O19: the slot moves to `coastEnd` or `tripHoldEnd`; an entry is made where `beforeEntry` is ready, and
waits on only by `coastEnd_waits_on`. -/
theorem coastAndTripHoldEnd : Obligations.CoastAndTripHoldEnd := by
  refine ⟨?_, ?_⟩
  · intro s k t hk x
    refine ⟨_, coastExpiry_next hk, (closes_closeEvent _ _).now, closes_closeEvent _ _,
      fun hs h => coastEnd_waits hs hk h, fun hs hp hm hj => ?_⟩
    cases hr : maintReady (beforeEntry s (moved k (coastEnd s (s.slot k)) t s)) with
    | true => exact ⟨fun _ => coastEnd_enters hs hk hp hr, .inl (coastEnd_enters hs hk hp hr)⟩
    | false =>
      have close := moved_waits hs hr
      obtain ⟨stuck, j, d, hjk, hd, hc⟩ := coastEnd_waits_on hs hk hp hm hj hr
      refine ⟨?_, .inr ⟨stuck, close.sj.trans (recomputeIfDue_sj _ _), ?_, ?_, j, d, hd, hc⟩⟩
      · rintro (h | h)
        · simp [stuck] at h
        · exact absurd hd (h j d hjk)
      · rw [close.fs, recomputeIfDue_entry]
        exact hp
      · rw [close.slot, moved_stands (coastEnd_stands hk)]
        exact if_pos stuck
  · intro s k t hk x
    refine ⟨_, tripHoldExpiry_next hk, (closes_closeEvent _ _).now, closes_closeEvent _ _, fun hs => ?_⟩
    rw [(moved_waits hs (tripHoldEnd_waits hs hk)).slot]
    refine moved_stands (.inr fun _ _ => ?_)
    unfold tripHoldEnd
    split <;> rfl

end Sys2Proof.Machine
end

section
/-! PROOFS. The recompute (O23): the own share and the slots it goes to, what a recompute leaves standing, and the
events after which it stands. -/

namespace Sys2Proof.Machine

/-! ## The own share (R53) -/

theorem ceilDiv_le_iff {x w n : Nat} (hw : 0 < w) : ceilDiv x w ≤ n ↔ x ≤ n * w := by
  unfold ceilDiv
  rw [Nat.div_le_iff_le_mul_add_pred hw, Nat.mul_comm]
  omega

theorem weight_pos (v : View) : 0 < weight v := by
  unfold weight; split <;> decide

theorem ownShare_idle {s : State} {g : Governing}
    (h : s.sj.mode ≠ .incident ∨ rankIn s.station (preferenceOrder s g.content) = none) :
    ownShare s g = 0 := by
  unfold ownShare
  dsimp only
  split
  · rename_i r hm hr
    rcases h with h | h
    · exact absurd hm h
    · rw [h] at hr; cases hr
  · rfl

theorem ownShare_ranked {s : State} {g : Governing} (hm : s.sj.mode = .incident)
    (hr : rankIn s.station (preferenceOrder s g.content) ≠ none) :
    ownShare s g = min (availableFans s) (ceilDiv
      (demandOf s g - capacityAhead s s.station (preferenceOrder s g.content)) (weight (ownView s))) := by
  obtain ⟨r, hr⟩ := Option.ne_none_iff_exists'.1 hr
  unfold ownShare
  dsimp only
  rw [hm, hr]

theorem ownShare_le (s : State) (g : Governing) : ownShare s g ≤ availableFans s := by
  by_cases h : s.sj.mode ≠ .incident ∨ rankIn s.station (preferenceOrder s g.content) = none
  · rw [ownShare_idle h]
    exact Nat.zero_le _
  · obtain ⟨hm, hr⟩ := not_or.1 h
    rw [ownShare_ranked (not_not.1 hm) hr]
    exact min_le_left _ _

/-- The share is the least number of fans that meets what the stations ahead leave of the demand, or every
available fan (R53). -/
theorem ownShare_least {s : State} {g : Governing} (hm : s.sj.mode = .incident)
    (hr : rankIn s.station (preferenceOrder s g.content) ≠ none) :
    (ownShare s g < availableFans s → demandOf s g ≤
      capacityAhead s s.station (preferenceOrder s g.content) + ownShare s g * weight (ownView s)) ∧
    ∀ n, n < ownShare s g →
      capacityAhead s s.station (preferenceOrder s g.content) + n * weight (ownView s) < demandOf s g := by
  have share := ownShare_ranked hm hr
  have meets (n : Nat) := ceilDiv_le_iff (x := demandOf s g -
    capacityAhead s s.station (preferenceOrder s g.content)) (n := n) (weight_pos (ownView s))
  refine ⟨fun hlt => ?_, fun n hn => ?_⟩
  · have := (meets (ownShare s g)).1 (by omega)
    omega
  · have := mt (meets n).2 (by omega)
    omega

/-! ## The slots it goes to (R54, R55) -/

theorem slotRank_isSome (d : Direction) (st : SlotState) : (slotRank d st).isSome = isUsable st := by
  cases st <;> rfl

theorem slotRank_lt {d : Direction} {st : SlotState} {r : Nat} (h : slotRank d st = some r) : r < 5 := by
  cases st with
  | running x | starting x _ | startWait x =>
    simp only [slotRank, Option.some.injEq] at h
    split at h <;> omega
  | stopped | coasting _ => cases h; decide
  | tripped _ | lockedOut _ | localControl | absent => cases h

theorem mem_allSlots (k : SlotNo) : k ∈ allSlots := by cases k <;> decide

theorem mem_slotOrder {s : State} {d : Direction} {k : SlotNo} :
    k ∈ slotOrder s d ↔ (slotRank d (s.slot k).st).isSome = true := by
  unfold slotOrder
  simp only [List.mem_flatMap, List.mem_filter, mem_allSlots, true_and, beq_iff_eq]
  constructor
  · rintro ⟨r, -, h⟩
    rw [h]
    rfl
  · intro h
    obtain ⟨r, hr⟩ := Option.isSome_iff_exists.1 h
    refine ⟨r, ?_, hr⟩
    have := slotRank_lt hr
    simp only [List.mem_cons, List.not_mem_nil, or_false]
    omega

/-- One usable slot is taken before another: the lower state rank, then the lower number (R54). -/
def takenBefore (s : State) (d : Direction) (j k : SlotNo) : Prop :=
  ∃ a b, slotRank d (s.slot j).st = some a ∧ slotRank d (s.slot k).st = some b ∧
    (a < b ∨ (a = b ∧ slotNumber j < slotNumber k))

theorem slotOrder_ordered (s : State) (d : Direction) : (slotOrder s d).Pairwise (takenBefore s d) := by
  have numbers : allSlots.Pairwise fun j k => slotNumber j < slotNumber k := by decide
  have ranks : [0, 1, 2, 3, 4].Pairwise fun a b : Nat => a < b := by decide
  have rank {r : Nat} {k : SlotNo}
      (h : k ∈ allSlots.filter fun k => slotRank d (s.slot k).st == some r) :
      slotRank d (s.slot k).st = some r := by simpa using (List.mem_filter.1 h).2
  refine List.pairwise_flatMap.2 ⟨fun r _ => ?_, ranks.imp fun hlt j hj k hk => ?_⟩
  · exact (numbers.filter _).imp_of_mem fun hj hk hlt => ⟨r, r, rank hj, rank hk, .inr ⟨rfl, hlt⟩⟩
  · exact ⟨_, _, rank hj, rank hk, .inl hlt⟩

theorem slotOrder_nodup (s : State) (d : Direction) : (slotOrder s d).Nodup := by
  refine (slotOrder_ordered s d).imp ?_
  rintro j k ⟨a, b, ha, hb, h⟩ rfl
  rw [ha, Option.some.injEq] at hb
  omega

/-- As many slots satisfy a test as a list of them without repetition is long. -/
theorem length_filter_slots {p : SlotNo → Bool} {l : List SlotNo} (hl : l.Nodup)
    (h : ∀ k, p k = true ↔ k ∈ l) : (allSlots.filter p).length = l.length := by
  have nodup : allSlots.Nodup := by decide
  refine ((List.perm_ext_iff_of_nodup (nodup.filter _) hl).2 fun k => ?_).length_eq
  rw [List.mem_filter, h]
  exact ⟨And.right, fun hk => ⟨mem_allSlots k, hk⟩⟩

theorem slotOrder_length (s : State) (d : Direction) :
    (slotOrder s d).length = s.fs.slots.count fun sl => isUsable sl.st := by
  rw [Quad.count_eq]
  exact (length_filter_slots (slotOrder_nodup s d) fun k => by
    rw [mem_slotOrder, slotRank_isSome]; rfl).symm

theorem targetsFor_get (s : State) (d : Direction) (n : Nat) (k : SlotNo) :
    (targetsFor s d n).get k = if k ∈ (slotOrder s d).take n then .run d else .off := by
  unfold targetsFor
  rw [Quad.get_mapNo]
  simp

theorem targetsFor_run {s : State} {d : Direction} {n : Nat} {k : SlotNo} :
    (targetsFor s d n).get k = .run d ↔ k ∈ (slotOrder s d).take n := by
  rw [targetsFor_get]
  split_ifs with h <;> simp [h]

theorem targetsFor_count (s : State) (d : Direction) (n : Nat) :
    (targetsFor s d n).count (fun x => x == .run d) = min n (slotOrder s d).length := by
  rw [Quad.count_eq, length_filter_slots ((slotOrder_nodup s d).sublist (List.take_sublist n _))
    fun k => by rw [beq_iff_eq, targetsFor_run], List.length_take]

/-- The own share goes to slots in the order of R54, and all of it finds a slot (R55, R82). -/
theorem share_count (s : State) (g : Governing) :
    (targetsFor s g.content.dir (ownShare s g)).count (fun x => x == .run g.content.dir) = ownShare s g := by
  rw [targetsFor_count, slotOrder_length, min_eq_left]
  refine (ownShare_le s g).trans ?_
  unfold availableFans
  split
  · exact Nat.zero_le _
  · exact Nat.zero_le _
  all_goals exact le_refl _

theorem targetsFor_usable (s : State) (d : Direction) (n : Nat) (k : SlotNo) :
    (targetsFor s d n).get k = .off ∨
      ((targetsFor s d n).get k = .run d ∧ (slotRank d (s.slot k).st).isSome = true) := by
  by_cases h : k ∈ (slotOrder s d).take n
  · exact .inr ⟨targetsFor_run.2 h, mem_slotOrder.1 (List.mem_of_mem_take h)⟩
  · left
    rw [targetsFor_get, if_neg h]

/-- A slot that gets the direction is taken before a usable one that gets OFF (R54). -/
theorem targetsFor_ordered {s : State} {d : Direction} {n : Nat} {j k : SlotNo} {a b : Nat}
    (hj : (targetsFor s d n).get j = .off) (hk : (targetsFor s d n).get k = .run d)
    (ha : slotRank d (s.slot j).st = some a) (hb : slotRank d (s.slot k).st = some b) :
    b < a ∨ (b = a ∧ slotNumber k < slotNumber j) := by
  have out : j ∈ (slotOrder s d).drop n := by
    have hm : j ∈ slotOrder s d := mem_slotOrder.2 (by rw [ha]; rfl)
    rw [← List.take_append_drop n (slotOrder s d), List.mem_append] at hm
    refine hm.resolve_left fun h => ?_
    rw [targetsFor_run.2 h] at hj
    cases hj
  have ordered := slotOrder_ordered s d
  rw [← List.take_append_drop n (slotOrder s d), List.pairwise_append] at ordered
  obtain ⟨x, y, hx, hy, h⟩ := ordered.2.2 k (targetsFor_run.1 hk) j out
  rw [hb, Option.some.injEq] at hx
  rw [ha, Option.some.injEq] at hy
  omega

/-! ## A plan that stands -/

theorem ownShare_congr {s t : State} {g h : Governing} (hj : t.sj = s.sj) (hp : t.pt = s.pt)
    (hu : t.su = s.su) (hf : availableFans t = availableFans s) (hc : h.content = g.content)
    (hd : demandOf t h = demandOf s g) : ownShare t h = ownShare s g := by
  have capacity : capacityOf t = capacityOf s := by
    funext p
    by_cases hq : p = s.station
    · unfold capacityOf viewOf
      rw [station_congr hj, if_pos hq, if_pos hq]
      change availableFans t * weight (ownView t) = availableFans s * weight (ownView s)
      rw [hf]
      unfold weight ownView
      rw [hu]
    · unfold capacityOf
      rw [viewOf_congr hj hp hq]
  unfold ownShare capacityAhead
  rw [hj, hf, hc, hd, station_congr hj, preferenceOrder_congr hj hp hu, capacity]
  unfold weight ownView
  rw [hu]

/-- Targets, class and rank and the pace state are as a recompute gives them, and every fitted slot holds its
target. -/
structure PlanStands (s : State) : Prop where
  handed : ∀ k, (s.slot k).st ≠ .absent → (s.slot k).target = s.tp.targets.get k
  idle : governing s = none → s.tp.targets = .all .off ∧ s.tp.classRank = none ∧
    s.tp.pace = .notPace ∧ s.tp.updateDue = none
  toward : ∀ g, governing s = some g → ∀ k,
    s.tp.targets.get k = .off ∨ s.tp.targets.get k = .run g.content.dir
  share : ∀ g, governing s = some g →
    s.tp.targets.count (fun x => x == .run g.content.dir) = ownShare s g
  classRank : ∀ g, governing s = some g → s.tp.classRank = classRankDue s g
  pace : ∀ g, governing s = some g → s.tp.pace = paceDue s g

theorem PlanStands.congr {s t : State} (h : PlanStands s) (hj : t.sj = s.sj)
    (hr : t.iu.records = s.iu.records) (ht : t.tp = s.tp) (hf : t.fs.slots = s.fs.slots)
    (hp : t.pt = s.pt) (hu : t.su = s.su) : PlanStands t := by
  have gov : governing t = governing s := governing_congr (by rw [hj]) hr
  have order := preferenceOrder_congr hj hp hu
  refine ⟨fun k hk => ?_, fun hg => ?_, fun g hg k => ?_, fun g hg => ?_, fun g hg => ?_, fun g hg => ?_⟩
  · rw [slot_congr hf] at hk ⊢
    rw [ht]
    exact h.handed k hk
  · rw [ht]
    exact h.idle (gov ▸ hg)
  · rw [ht]
    exact h.toward g (gov ▸ hg) k
  · rw [ht, h.share g (gov ▸ hg)]
    exact (ownShare_congr hj hp hu (availableFans_congr (by rw [hj]) hf) rfl
      (congrFun (demandOf_congr (by rw [hj])) g)).symm
  · rw [ht, h.classRank g (gov ▸ hg)]
    unfold classRankDue
    rw [order, station_congr hj]
  · rw [ht, h.pace g (gov ▸ hg)]
    unfold paceDue
    rw [order, station_congr hj, hj]

theorem PlanRest.stands {s t : State} (r : PlanRest s t) (h : PlanStands s) : PlanStands t :=
  h.congr r.sj (by rw [r.iu]) r.tp (by rw [r.fs]) r.pt r.su

/-- After a recompute the same record governs, its demand the one planned with (R39, R40). -/
theorem recompute_governing {s : State} {g : Governing} (hg : governing s = some g) :
    ∃ h, governing (recompute s) = some h ∧ h.content = g.content ∧
      demandOf (recompute s) h = demandOf s g ∧ yieldRuns h = yieldRuns g := by
  have k := closes_recompute s
  have same : demandOf (recompute s) = demandOf s := demandOf_congr k.straps
  cases hd : g.demand with
  | some d => exact ⟨g, k.governing_some hg hd, rfl, by rw [same], rfl⟩
  | none =>
    refine ⟨_, governing_of_bare k.straps k.bare hg, rfl, ?_⟩
    rw [same]
    by_cases created : paceDue s g = .pace ∧ s.tp.pace ≠ .pace
    · rw [(recompute_creates hg created.1 created.2 hd).1]
      simp [demandOf, yieldRuns, hd]
    · have stands : (recompute s).iu = s.iu := by
        by_cases h : paceDue s g = .pace
        · exact (recompute_stays hg h (by simpa [h] using created)).1
        · exact (recompute_leaves hg h).1
      rw [stands, governing_demand hg]
      exact ⟨rfl, rfl⟩

theorem recompute_availableFans (s : State) : availableFans (recompute s) = availableFans s := by
  have usable : (recompute s).fs.slots.count (fun sl => isUsable sl.st) =
      s.fs.slots.count fun sl => isUsable sl.st := Quad.count_congr fun k => by
    have := recompute_st s k
    exact (congrArg isUsable this).trans (stateOnTarget_usable _ _ _)
  unfold availableFans
  rw [recompute_sj, usable]

theorem recompute_handed (s : State) (k : SlotNo) (h : ((recompute s).slot k).st ≠ .absent) :
    ((recompute s).slot k).target = (recompute s).tp.targets.get k := by
  rw [recompute_slot] at h ⊢
  refine handTarget_target _ _ _ fun e => h ?_
  rw [handTarget_st, e]
  rfl

/-- A recompute leaves the plan standing. -/
theorem planStands_recompute (s : State) : PlanStands (recompute s) := by
  have k := closes_recompute s
  cases hg : governing s with
  | none =>
    have gov : governing (recompute s) = none := governing_none_of_bare k.straps k.bare hg
    have idle : (recompute s).tp.targets = .all .off ∧ (recompute s).tp.classRank = none ∧
        (recompute s).tp.pace = .notPace ∧ (recompute s).tp.updateDue = none := by
      rw [recompute_none hg]
      exact ⟨rfl, rfl, rfl, rfl⟩
    constructor
    case handed => exact recompute_handed s
    case idle => exact fun _ => idle
    all_goals exact fun g h => absurd h (by simp [gov])
  | some g =>
    obtain ⟨h, hh, hc, hd, hy⟩ := recompute_governing hg
    have gov {x : Governing} (hx : governing (recompute s) = some x) : x = h := by
      rw [hh, Option.some.injEq] at hx
      exact hx.symm
    have order := preferenceOrder_congr (recompute_sj s) k.pt k.su h.content
    have rank : classRankDue (recompute s) h = classRankDue s g ∧ paceDue (recompute s) h = paceDue s g := by
      unfold classRankDue paceDue paceFor
      rw [order, station_congr (recompute_sj s), recompute_sj, hc, hy]
      exact ⟨rfl, rfl⟩
    refine ⟨recompute_handed s, fun e => absurd e (by simp [hh]), fun x hx j => ?_, fun x hx => ?_,
      fun x hx => ?_, fun x hx => ?_⟩
    all_goals rw [gov hx]
    · rw [recompute_targets hg, hc]
      exact (targetsFor_usable s _ _ j).imp_right And.left
    · rw [recompute_targets hg, hc, share_count]
      exact (ownShare_congr (recompute_sj s) k.pt k.su (recompute_availableFans s) hc hd).symm
    · rw [recompute_classRank hg, rank.1]
    · rw [recompute_pace hg, rank.2]

/-! ## The events that call for a recompute (R56) -/

/-- An event that found `b` and left `s` calls for a recompute. -/
def CallsRecompute (b s : State) : Prop := triggerOf b ≠ triggerOf s ∨ yieldEnded b s = true

theorem recomputeIfDue_calls {b s : State} (hm : s.sj.mode ≠ .configFault) (h : CallsRecompute b s) :
    recomputeIfDue b s = recompute s := by
  have : ¬ (triggerOf b = triggerOf s ∧ yieldEnded b s = false) := by
    rintro ⟨ht, hy⟩
    rcases h with h | h
    · exact h ht
    · simp [hy] at h
  unfold recomputeIfDue
  rw [if_neg hm, if_neg this]

theorem not_calls_iff {b s : State} :
    ¬ CallsRecompute b s ↔ triggerOf b = triggerOf s ∧ yieldEnded b s = false := by
  simp [CallsRecompute]

theorem recomputeIfDue_quiet {b s : State} (h : ¬ CallsRecompute b s) : recomputeIfDue b s = s := by
  unfold recomputeIfDue
  rw [if_pos (not_calls_iff.1 h), ite_self]

theorem PlanRest.calls {s t : State} (r : PlanRest s t) (b : State) :
    CallsRecompute b t ↔ CallsRecompute b s := by
  have trigger : triggerOf t = triggerOf s := by
    unfold triggerOf
    rw [r.governing, demandOf_congr (s := s) (u := t) (by rw [r.sj]),
      availableFans_congr (s := s) (u := t) (by rw [r.sj]) (by rw [r.fs]), r.sj, r.su, r.pt]
  unfold CallsRecompute yieldEnded
  rw [trigger, r.governing]

theorem trigger_gov {s t : State} (h : triggerOf s = triggerOf t) :
    (governing s).map (fun g => (g.id, g.content)) = (governing t).map fun g => (g.id, g.content) :=
  congrArg Trigger.gov h

/-- What two events together call for, one of them calls for. -/
theorem calls_of_not {s m u : State} (h : CallsRecompute s u) (hn : ¬ CallsRecompute m u) :
    CallsRecompute s m := by
  obtain ⟨trigger, ended⟩ := not_calls_iff.1 hn
  by_contra hs
  obtain ⟨trigger', ended'⟩ := not_calls_iff.1 hs
  refine absurd h (not_calls_iff.2 ⟨trigger'.trans trigger, ?_⟩)
  have gm := trigger_gov trigger
  unfold yieldEnded at ended ended' ⊢
  cases ha : governing s with
  | none => rfl
  | some a =>
    cases hb : governing u with
    | none => rfl
    | some b =>
      rw [hb] at gm
      obtain ⟨c, hc, hcb⟩ := Option.map_eq_some_iff.1 gm
      have hid : c.id = b.id := congrArg Prod.fst hcb
      rw [ha, hc] at ended'
      rw [hc, hb] at ended
      simp only [hid, Bool.and_eq_false_iff, beq_self_eq_true, Bool.true_eq_false, false_or,
        Bool.not_eq_false'] at ended ended' ⊢
      rcases ended' with e | e
      · exact .inl e
      · exact .inr (ended.resolve_left (by simp [e]))

/-- Where an event has called for a recompute, the plan stands after it. -/
theorem planStands_follow {b x : State} (hm : (follow b x).sj.mode ≠ .configFault)
    (hc : CallsRecompute b (follow b x)) : PlanStands (follow b x) := by
  rcases follow_cases b x with ⟨-, r⟩ | ⟨-, r⟩
  · by_cases h : CallsRecompute b (beforePlan b x)
    · rw [r.sj, recomputeIfDue_sj] at hm
      rw [recomputeIfDue_calls hm h] at r
      exact r.stands (planStands_recompute _)
    · rw [recomputeIfDue_quiet h] at r
      exact absurd ((r.calls b).1 hc) h
  · exact r.stands (planStands_recompute _)

theorem followList_same {s : State} (h : (followList s).sj.mode = s.sj.mode) : followList s = s := by
  have set_same {m : Mode} (hm : m = s.sj.mode) : setMode m s = s := by subst hm; rfl
  unfold followList at h ⊢
  split at h
  · exact set_same h
  · exact set_same h
  all_goals rfl

/-- A plan that stands stands after an event of its own mode and governing record. -/
theorem planStands_stays {m x : State} (hx : PlanStands x)
    (hj : x.sj = m.sj) (hg : governing x = governing m)
    (hm : (follow m x).sj.mode ≠ .configFault) : PlanStands (follow m x) := by
  by_cases hc : CallsRecompute m (follow m x)
  · exact planStands_follow hm hc
  · rcases follow_cases m x with ⟨-, r⟩ | ⟨-, r⟩
    · by_cases h : CallsRecompute m (beforePlan m x)
      · rw [r.sj, recomputeIfDue_sj] at hm
        rw [recomputeIfDue_calls hm h] at r
        exact r.stands (planStands_recompute _)
      · have mode := congrArg Trigger.mode (not_calls_iff.1 h).1
        change m.sj.mode = (governingChanged m (followList x)).sj.mode at mode
        rw [governingChanged_sj, ← hj] at mode
        have same : beforePlan m x = x := by
          unfold beforePlan
          rw [followList_same mode.symm]
          exact governingChanged_same hg
        rw [recomputeIfDue_quiet h, same] at r
        exact r.stands hx
    · exact r.stands (planStands_recompute _)

end Sys2Proof.Machine
end

section
/-! PROOFS. Every event that calls for a recompute leaves the plan standing, and a change of the governing record or
of its direction starts the change timer again (O23). -/

namespace Sys2Proof.Machine

/-! ## What calls for a recompute, in the terms of R56 -/

theorem not_calls_of {b s : State} (ht : triggerOf b = triggerOf s) (hg : governing s = governing b) :
    ¬ CallsRecompute b s := not_calls_iff.2 ⟨ht, yieldEnded_same hg⟩

/-- What of a peer's record calls for a recompute (R56). -/
def countedOf (p : Peer) : LiveKind × Option (Mode × Nat × Nat × Nat × Option TempClass) :=
  (liveKind p.liveness, (usableStatus p).map fun st =>
    (st.view.mode, st.view.fans, st.view.runA, st.view.runB, tempClass st.view.temp))

theorem countedOf_peerOf {ps qs : List Peer} (h : ps.map peerTrigger = qs.map peerTrigger) (p : Nat) :
    countedOf (peerOf ps p) = countedOf (peerOf qs p) := by
  induction ps generalizing qs with
  | nil =>
    rw [List.map_nil, eq_comm, List.map_eq_nil_iff] at h
    rw [h]
  | cons x xs ih =>
    cases qs with
    | nil => cases h
    | cons y ys =>
      obtain ⟨hxy, ht⟩ := List.cons.inj h
      have hi : x.index = y.index := congrArg PeerTrigger.index hxy
      have next := ih ht
      unfold peerOf at next ⊢
      rw [List.find?_cons, List.find?_cons, hi]
      split
      · exact Prod.ext (congrArg PeerTrigger.kind hxy) (congrArg PeerTrigger.counted hxy)
      · exact next

theorem yieldEnded_iff {b s : State} : yieldEnded b s = true ↔ ∃ g h, governing b = some g ∧
    governing s = some h ∧ g.id = h.id ∧ yieldRuns g = true ∧ yieldRuns h = false := by
  unfold yieldEnded
  split
  · rename_i g h hg hh
    simp [hg, hh, and_assoc]
  · rename_i hn
    constructor
    · exact fun e => absurd e (by simp)
    · rintro ⟨g, h, hg, hh, -⟩
      exact absurd hh (hn g h hg)

/-- Each change that R56 names calls for a recompute. -/
theorem calls_of_change {s u : State} (h : u.sj.mode ≠ s.sj.mode ∨ availableFans u ≠ availableFans s ∨
      tempClass u.su.heat.value ≠ tempClass s.su.heat.value ∨
      (governing u).map (fun g => (g.id, g.content)) ≠ (governing s).map (fun g => (g.id, g.content)) ∨
      (governing u).map (demandOf u) ≠ (governing s).map (demandOf s) ∨
      (∃ p, countedOf (peerOf u.pt p) ≠ countedOf (peerOf s.pt p)) ∨
      (∃ a b, governing s = some a ∧ governing u = some b ∧ a.id = b.id ∧ yieldRuns a = true ∧
        yieldRuns b = false)) : CallsRecompute s u := by
  by_contra hn
  obtain ⟨trigger, ended⟩ := not_calls_iff.1 hn
  rcases h with h | h | h | h | h | ⟨p, h⟩ | h
  · exact h (congrArg Trigger.mode trigger).symm
  · exact h (congrArg Trigger.fans trigger).symm
  · exact h (congrArg Trigger.cls trigger).symm
  · exact h (congrArg Trigger.gov trigger).symm
  · exact h (congrArg Trigger.demand trigger).symm
  · exact h (countedOf_peerOf (congrArg Trigger.peers trigger) p).symm
  · rw [yieldEnded_iff.2 h] at ended
    cases ended

/-! ## The change timer (R45, R57, R58) -/

/-- The id and the direction of the governing record. -/
def told (s : State) : Option (Id × Direction) := (governing s).map fun g => (g.id, g.content.dir)

theorem told_none {s : State} : told s = none ↔ governing s = none := Option.map_eq_none_iff

theorem Closes.told {s t : State} (k : Closes s t) : Machine.told t = Machine.told s := by
  unfold Machine.told
  cases hg : governing s with
  | none => rw [governing_none_of_bare k.straps k.bare hg]
  | some g => rw [governing_of_bare k.straps k.bare hg]; rfl

theorem governingChanged_changeDue (b s : State) : (governingChanged b s).tp.changeDue =
    if told s = told b then s.tp.changeDue else (told s).map fun _ => s.now + changeTime := by
  unfold governingChanged told
  cases governing b with
  | none => cases governing s <;> simp
  | some g =>
    cases governing s with
    | none => simp
    | some h =>
      by_cases hi : g.id = h.id
      · by_cases hd : g.content.dir = h.content.dir <;> simp [hi, hd, eq_comm]
      · simp [hi, eq_comm]

/-- What the closing makes of the change timer: it is started anew, stopped or left as the governing record
calls for, and may start where a demand part is made (R45). -/
theorem follow_changeDue (b x : State) :
    (follow b x).tp.changeDue = (if told x = told b then x.tp.changeDue
      else (told x).map fun _ => x.now + changeTime) ∨
    (told x ≠ none ∧ (follow b x).tp.changeDue = some (x.now + changeTime)) := by
  have start : (beforePlan b x).tp.changeDue = if told x = told b then x.tp.changeDue
      else (told x).map fun _ => x.now + changeTime := by
    unfold beforePlan
    rw [governingChanged_changeDue, (closes_followList x).told, followList_tp, followList_now]
  have starts {s : State} (k : Closes x s) : (recompute s).tp.changeDue = s.tp.changeDue ∨
      (told x ≠ none ∧ (recompute s).tp.changeDue = some (x.now + changeTime)) := by
    rw [← k.now, ← k.told, ne_eq, told_none]
    exact recompute_changeDue s
  have first : (recomputeIfDue b (beforePlan b x)).tp.changeDue = (beforePlan b x).tp.changeDue ∨
      (told x ≠ none ∧ (recomputeIfDue b (beforePlan b x)).tp.changeDue = some (x.now + changeTime)) := by
    unfold recomputeIfDue
    split
    · exact .inl rfl
    · split
      · exact .inl rfl
      · exact starts (closes_beforePlan b x)
  rw [← start]
  rcases follow_cases b x with ⟨-, r⟩ | ⟨hr, r⟩
  · rw [r.tp]
    exact first
  · have entry : Closes x (enterMaintenance (beforeEntry b x)) :=
      (closes_beforeEntry b x).trans (closes_enterMaintenance _ hr)
    have same : (enterMaintenance (beforeEntry b x)).tp = (recomputeIfDue b (beforePlan b x)).tp :=
      (planRest_beforeEntry b x).tp
    have second := starts entry
    rw [same] at second
    rw [r.tp]
    rcases second with e | e
    · rw [e]
      exact first
    · exact .inr e

/-- The change timer as a change of the governing record or its direction since `b` leaves it (R45, R58). -/
structure ChangeTimed (b u : State) : Prop where
  starts : told u ≠ none → told u ≠ told b → u.tp.changeDue = some (u.now + changeTime)
  stops : told u = none → told b ≠ none → u.tp.changeDue = none

theorem ChangeTimed.of_same {b u : State} (h : told u = told b) : ChangeTimed b u :=
  ⟨fun _ hn => absurd h hn, fun hu hb => absurd (h ▸ hu) hb⟩

theorem PlanRest.changeTimed {b s t : State} (r : PlanRest s t) (h : ChangeTimed b s) : ChangeTimed b t := by
  have same : Machine.told t = Machine.told s := by unfold Machine.told; rw [r.governing]
  exact ⟨by rw [same, r.tp, r.now]; exact h.starts, by rw [same, r.tp]; exact h.stops⟩

theorem changeTimed_follow (b x : State) : ChangeTimed b (follow b x) := by
  have k := closes_follow b x
  have due := follow_changeDue b x
  refine ⟨fun hu hn => ?_, fun hu hb => ?_⟩
  · rw [k.told] at hu hn
    rw [k.now]
    rcases due with e | ⟨-, e⟩
    · obtain ⟨y, hy⟩ := Option.ne_none_iff_exists'.1 hu
      rw [e, if_neg hn, hy]
      rfl
    · exact e
  · rw [k.told] at hu
    rcases due with e | ⟨e, -⟩
    · rw [e, if_neg fun same => hb (same.symm.trans hu), hu]
      rfl
    · exact absurd hu e

/-- An event of its own governing record, direction and moment leaves the change timer as it has to be. -/
theorem ChangeTimed.follow {b m x : State} (h : ChangeTimed b m) (ht : told x = told m)
    (hn : x.now = m.now) (hp : x.tp = m.tp) : ChangeTimed b (Machine.follow m x) := by
  have k := closes_follow m x
  have due := follow_changeDue m x
  rw [if_pos ht, hp, ht, hn] at due
  refine ⟨fun hu hb => ?_, fun hu hb => ?_⟩
  · rw [k.told, ht] at hu hb
    rw [k.now, hn]
    rcases due with e | ⟨-, e⟩
    · rw [e, h.starts hu hb]
    · exact e
  · rw [k.told, ht] at hu
    rcases due with e | ⟨e, -⟩
    · rw [e, h.stops hu hb]
    · exact absurd hu e

/-! ## Every command but a reset -/

theorem triggerOf_pin {s : State} (k : SlotNo) (n : SlotInput) (p : SlotPin) :
    triggerOf s = triggerOf (setSlot k ((s.slot k).setInput n p) s) := by
  have fans : availableFans (setSlot k ((s.slot k).setInput n p) s) = availableFans s := by
    have count : (setSlot k ((s.slot k).setInput n p) s).fs.slots.count (fun sl => isUsable sl.st) =
        s.fs.slots.count fun sl => isUsable sl.st := Quad.count_congr fun j =>
      congrArg isUsable (setSlot_setInput_st k j n p s)
    unfold availableFans
    rw [count]
    rfl
  unfold triggerOf
  rw [fans]
  rfl

theorem triggerOf_level {s : State} (n : Input) (d : Debounced) :
    triggerOf s = triggerOf (setSu (s.su.setInput n d) s) := by
  have heat : (s.su.setInput n d).heat = s.su.heat := by cases n <;> rfl
  unfold triggerOf
  change _ = Trigger.mk _ _ (tempClass (s.su.setInput n d).heat.value) _ _ _
  rw [heat]
  rfl

/-- MAINT taken at the end of JOINING makes an entry pending and leaves all that the planner looks at
(R136, R170). -/
theorem maintAtJoin_rest (s : State) : (maintAtJoin s).now = s.now ∧ (maintAtJoin s).sj = s.sj ∧
    (maintAtJoin s).iu = s.iu ∧ (maintAtJoin s).tp = s.tp ∧ (maintAtJoin s).fs.slots = s.fs.slots ∧
    (maintAtJoin s).pt = s.pt ∧ (maintAtJoin s).su = s.su := by
  unfold maintAtJoin
  split <;> exact ⟨rfl, rfl, rfl, rfl, rfl, rfl, rfl⟩

theorem maintAtJoin_governing (s : State) : governing (maintAtJoin s) = governing s := by
  obtain ⟨-, hj, hi, -⟩ := maintAtJoin_rest s
  exact governing_congr (by rw [hj]) (by rw [hi])

/-- The first STATUS leaves the plan of the end of JOINING (R170). -/
theorem planRest_joined (t : Time) (s : State) :
    PlanRest (follow s (leaveJoining (reachTime t s))) (joined t s) := planRest_placeEarly _

section Event

variable {i : Instr} {s u : State} (h : exec i s = .next u) (hi : isReset i = false)
include h hi

/-- Every event that calls for a recompute leaves the plan as a recompute gives it (R56). -/
theorem planStands_exec (hm : u.sj.mode ≠ .configFault) (hc : CallsRecompute s u) : PlanStands u := by
  cases exec_answers h with
  | powerOn => cases hi
  | external => cases hi
  | release => cases hi
  | level n v => exact absurd hc (not_calls_of (triggerOf_level n _) (governing_congr rfl rfl))
  | pin k n v p => exact absurd hc (not_calls_of (triggerOf_pin k n p) (governing_congr rfl rfl))
  | idle => exact absurd hc (not_calls_of rfl rfl)
  | event _ _ x plain join own =>
    have rest := planRest_closeEvent s x
    rw [rest.sj] at hm
    exact rest.stands (planStands_follow hm ((rest.calls s).1 hc))
  | join t due =>
    obtain ⟨-, hj, hiu, htp, hfs, hpt, hsu⟩ := maintAtJoin_rest (joined t s)
    have rest := planRest_closeEvent (joined t s) (maintAtJoin (joined t s))
    rw [rest.sj] at hm
    refine rest.stands ?_
    by_cases second : CallsRecompute (joined t s) (follow (joined t s) (maintAtJoin (joined t s)))
    · exact planStands_follow hm second
    · have first := calls_of_not ((rest.calls s).1 hc) second
      have joins := planRest_joined t s
      have mode : (joined t s).sj.mode ≠ .configFault := fun e => hm (by
        have k := closes_follow (joined t s) (maintAtJoin (joined t s))
        rw [k.modeStays (by rw [hj]; exact .inr (.inr e)), hj]
        exact e)
      rw [joins.sj] at mode
      have stands := joins.stands (planStands_follow mode ((joins.calls s).1 first))
      exact planStands_stays (stands.congr hj (by rw [hiu]) htp hfs hpt hsu) hj (maintAtJoin_governing _) hm

/-- Every event leaves the change timer as a change of the governing record calls for (R45, R58). -/
theorem changeTimed_exec : ChangeTimed s u := by
  cases exec_answers h with
  | powerOn => cases hi
  | external => cases hi
  | release => cases hi
  | level n v => exact .of_same rfl
  | pin k n v p => exact .of_same rfl
  | idle => exact .of_same rfl
  | event _ _ x plain join own => exact (planRest_closeEvent s x).changeTimed (changeTimed_follow s x)
  | join t due =>
    obtain ⟨hn, -, -, htp, -⟩ := maintAtJoin_rest (joined t s)
    have first := (planRest_joined t s).changeTimed (changeTimed_follow s _)
    have same : told (maintAtJoin (joined t s)) = told (joined t s) := by
      unfold told; rw [maintAtJoin_governing]
    exact (planRest_closeEvent _ _).changeTimed (first.follow same hn htp)

end Event

/-! ## The statement -/

theorem paceDue_eq (s : State) (g : Governing) : paceDue s g =
    if s.sj.mode = .joining ∨ s.sj.mode = .configFault then .notPace
    else if (g.demand.bind Demand.yieldDue).isSome = true then .holding
    else if rankIn s.station (preferenceOrder s g.content) = some 0 then .pace else .notPace := by
  unfold paceDue paceFor
  cases s.sj.mode <;> simp [yieldRuns] <;> rfl

/-- Settles O23: the share is `ownShare_least`, its slots `targetsFor_ordered`, the timers those of `setPace`;
`planStands_exec` and `changeTimed_exec` carry the rest through every event. -/
theorem recomputeTargetsTheShare : Obligations.RecomputeTargetsTheShare := by
  intro s
  refine ⟨?_, fun hg => ?_, fun k hk => ?_, ?_, ?_⟩
  · intro g hg d rank ahead w t stateRank
    have ranks : stateRank = slotRank d := by funext st; cases st <;> rfl
    have targets : t = targetsFor s d (ownShare s g) := recompute_targets hg
    have pace := recompute_pace hg
    rw [ranks, targets]
    refine ⟨share_count s g, ownShare_le s g, ownShare_idle, fun hm hr => ownShare_least hm hr,
      recompute_classRank hg, targetsFor_usable s d _, fun j k a b => targetsFor_ordered,
      pace.trans (paceDue_eq s g), fun hp hn => ?_, fun hp hn => ?_, fun hn => ?_⟩
    · rw [pace] at hp
      cases hd : g.demand with
      | none =>
        obtain ⟨part, update, change⟩ := recompute_creates hg hp hn hd
        exact ⟨update, fun _ => ⟨part, change⟩, fun e => absurd rfl e⟩
      | some e =>
        obtain ⟨hiu, update, change⟩ := recompute_enters hg hp hn hd
        exact ⟨update, fun e => (by cases e), fun _ => ⟨hiu, change⟩⟩
    · obtain ⟨hiu, update, -⟩ := recompute_stays hg (pace ▸ hp) hn
      exact ⟨update, hiu⟩
    · obtain ⟨hiu, update, -⟩ := recompute_leaves hg (pace ▸ hn)
      exact ⟨update, hiu⟩
  · rw [recompute_none hg]
    exact ⟨rfl, rfl, rfl, rfl⟩
  · refine recompute_handed s k fun e => hk ?_
    exact ((closes_recompute s).slots k).absent.1 e
  · intro i u h hi hm counted hc
    have stands := planStands_exec h hi hm (calls_of_change hc)
    refine ⟨stands.handed, stands.idle, fun g hg => ⟨stands.toward g hg, stands.share g hg,
      stands.classRank g hg, ?_⟩⟩
    rw [stands.pace g hg, paceDue_eq]
    simp only [hm, or_false]
  · intro i u h hi hm told'
    obtain ⟨starts, stops⟩ := changeTimed_exec h hi
    exact ⟨fun hg => starts (mt told_none.1 hg), fun hg hs => stops (told_none.2 hg) (mt told_none.1 hs)⟩

end Sys2Proof.Machine
end

section
/-! PROOFS. What an event's own effect can do to the slots, the own claim's grant, the mode and the slot fault
outputs, said once for every command: most leave them, one slot or all four act on a feedback input or a timer, and
only a grant and a maintenance exit give a drive. -/

namespace Sys2Proof.Machine

/-! ## Effects that leave the Fan Slots -/

/-- A GRANTED claim stands, whatever becomes of its renewal timer (R102). -/
def GrantStands (s t : State) : Prop :=
  ∀ c due, s.cu.own = .granted c due → ∃ due', t.cu.own = .granted c due'

theorem GrantStands.of_own {s t : State} (h : t.cu.own = s.cu.own) : GrantStands s t :=
  fun _ due ho => ⟨due, h.trans ho⟩

theorem GrantStands.trans {s t u : State} (h : GrantStands s t) (g : GrantStands t u) : GrantStands s u :=
  fun c due ho => by
    obtain ⟨due', ho'⟩ := h c due ho
    exact g c due' ho'

/-- The slots, the slot fault outputs and the mode stand, and so does a GRANTED claim. -/
structure FansRest (s t : State) : Prop where
  slots : t.fs.slots = s.fs.slots
  mode : t.sj.mode = s.sj.mode
  flash : t.no.flash = s.no.flash
  grant : GrantStands s t

theorem FansRest.refl (s : State) : FansRest s s := ⟨rfl, rfl, rfl, .of_own rfl⟩

theorem FansRest.trans {s t u : State} (h : FansRest s t) (g : FansRest t u) : FansRest s u :=
  ⟨g.slots.trans h.slots, g.mode.trans h.mode, g.flash.trans h.flash, h.grant.trans g.grant⟩

theorem FansRest.of_same {s t : State} (hs : t.fs.slots = s.fs.slots) (hm : t.sj.mode = s.sj.mode)
    (hf : t.no.flash = s.no.flash) (ho : t.cu.own = s.cu.own) : FansRest s t := ⟨hs, hm, hf, .of_own ho⟩

theorem IuRest.fans {s t : State} (h : IuRest s t) : FansRest s t :=
  .of_same (by rw [h.fs]) (by rw [h.sj]) h.flash (by rw [h.cu])

/-- Placing frames leaves the slots. -/
theorem LineRest.fans {s t : State} (h : LineRest s t) (g : GrantStands s t) : FansRest s t :=
  ⟨by rw [h.fs], by rw [h.sj], by rw [h.no], g⟩

/-- No refused frame takes back a grant: the report of a CLAIM is for one that settles (R91, R152). -/
theorem grantStands_refuseFrame (b : Body) (s : State) : GrantStands s (refuseFrame b s) :=
  fun _ due ho => ⟨due, by rw [refuseFrame_own, ho]⟩

theorem grantStands_joinTail (b : Body) (s : State) : GrantStands s (joinTail b s) := by
  unfold joinTail
  split
  · exact grantStands_refuseFrame b s
  · exact .of_own rfl

/-- No placed frame takes back a grant. -/
theorem grantStands_place (b : Body) (s : State) : GrantStands s (place b s) := by
  have placed (t : State) (ht : t = match replaceIn b s.li.tx with
      | some q => setTx q s
      | none => joinTail b s) : GrantStands s t := by
    subst ht
    split
    · exact .of_own rfl
    · exact grantStands_joinTail b s
  unfold place
  split
  · exact .of_own rfl
  · split
    · split
      · exact .of_own rfl
      · exact grantStands_joinTail _ s
    all_goals exact placed _ rfl

theorem fansRest_place (b : Body) (s : State) : FansRest s (place b s) :=
  (lineRest_place b s).fans (grantStands_place b s)

theorem fansRest_reachTime (t : Time) (s : State) : FansRest s (reachTime t s) := .of_same rfl rfl rfl rfl

theorem fansRest_raise (f : TimedFlag) (s : State) : FansRest s (raiseFlag f s) := .of_same rfl rfl rfl rfl

theorem fansRest_setSu (u : Su) (s : State) : FansRest s (setSu u s) := .of_same rfl rfl rfl rfl

theorem fansRest_alarmEvent (s : State) : FansRest s (alarmEvent s) := by
  unfold alarmEvent
  split
  · exact .of_same rfl rfl rfl rfl
  · exact (iuRest_actOnAlarm s).fans
  · exact (iuRest_actOnAlarm s).fans
  · exact (iuRest_actOnAlarm s).fans
  · exact .refl s

theorem fansRest_noteInvalid (v : Option Int) (r : Reading) (s : State) : FansRest s (noteInvalid v r s) := by
  unfold noteInvalid
  split
  · exact fansRest_raise _ s
  · exact .refl s

theorem fansRest_heatAlarmStep (v : Option Int) (s : State) : FansRest s (heatAlarmStep v s) := by
  unfold heatAlarmStep
  split
  · split
    · exact (fansRest_setSu _ s).trans (fansRest_alarmEvent _)
    · exact .refl s
  · exact fansRest_setSu _ s

theorem fansRest_takeSample (x : Sensor) (v : Option Int) (s : State) : FansRest s (takeSample x v s) := by
  cases x
  · exact (fansRest_setSu _ s).trans ((fansRest_noteInvalid _ _ _).trans (fansRest_heatAlarmStep _ _))
  · exact (fansRest_setSu _ s).trans (fansRest_noteInvalid _ _ _)
  · exact (fansRest_setSu _ s).trans (fansRest_noteInvalid _ _ _)

theorem fansRest_directionCommand (d : Direction) (o : Bool) (s : State) :
    FansRest s (directionCommand d o s) := by
  unfold directionCommand
  split
  · exact .of_same rfl rfl rfl rfl
  · split
    · exact ((iuRest_setRecords _ s).trans (iuRest_triggerReannounce _ _)).fans.trans (.of_same rfl rfl rfl rfl)
    · exact .of_same rfl rfl rfl rfl

theorem fansRest_standDown (s : State) : FansRest s (standDown s) := by
  unfold standDown
  split
  · exact .of_same rfl rfl rfl rfl
  · exact ((iuRest_endChain _ s).trans (iuRest_placeEnd _ _)).fans.trans (.of_same rfl rfl rfl rfl)

theorem fansRest_commandEdge {act : State → State} (h : ∀ s, FansRest s (act s)) (s : State) :
    FansRest s (commandEdge act s) := by
  have noted : FansRest s (noteCommand s) := .of_same rfl rfl rfl rfl
  unfold commandEdge
  split
  · exact noted.trans (h _)
  · exact noted.trans (h _)
  · exact noted.trans (h _)
  · exact .refl s
  · exact .refl s

theorem fansRest_testConflictLamp (s : State) : FansRest s (testConflictLamp s) := by
  unfold testConflictLamp
  split
  · exact .of_same rfl rfl rfl rfl
  · exact .refl s

theorem fansRest_lampExpired (l : Lamp) (s : State) : FansRest s (lampExpired l s) := by
  cases l
  · exact .of_same rfl rfl rfl rfl
  · exact .of_same rfl rfl rfl rfl
  · exact (FansRest.of_same rfl rfl rfl rfl : FansRest s
      { s with no := { s.no with conflict := ⟨s.no.conflict.lit, none⟩ } }).trans (fansRest_testConflictLamp _)

theorem fansRest_paceUpdate (s : State) : FansRest s (paceUpdate s) := by
  unfold paceUpdate
  split <;> exact .of_same rfl rfl rfl rfl

theorem fansRest_considerDemand (p : Nat) (st : StatusPart) (s : State) :
    FansRest s (considerDemand p st s) := by
  unfold considerDemand
  split
  · split
    · split
      · exact .of_same rfl rfl rfl rfl
      · split
        · exact .of_same rfl rfl rfl rfl
        · exact .refl s
    · exact .refl s
  · exact .refl s

theorem fansRest_receiveIncident (b : Octets) (s : State) : FansRest s (receiveIncident b s) := by
  unfold receiveIncident
  split
  · exact fansRest_raise _ s
  · exact ((iuRest_catchUp _ s).trans (iuRest_receiveActive _ _ _)).fans
  · exact ((iuRest_catchUp _ s).trans ((iuRest_catchUp _ _).trans (iuRest_receiveAbsorbed _ _ _ _))).fans
  · exact ((iuRest_catchUp _ s).trans (iuRest_receiveEnd _ _)).fans

theorem fansRest_receiveEnding (b : Octets) (s : State) : FansRest s (receiveEnding b s) := by
  unfold receiveEnding
  split
  · exact fansRest_raise _ s
  · exact ((iuRest_catchUp _ s).trans (iuRest_receiveEnd _ _)).fans

theorem fansRest_receiveClaim (p : Nat) (b : Octets) (s : State) : FansRest s (receiveClaim p b s) := by
  unfold receiveClaim
  split
  · split
    · exact fansRest_raise _ s
    · unfold applyClaim
      dsimp only
      split
      · split <;> exact .of_same rfl rfl rfl rfl
      · exact .of_same rfl rfl rfl rfl
  · exact .refl s

theorem fansRest_receiveClaimEnd (p : Nat) (b : Octets) (s : State) : FansRest s (receiveClaimEnd p b s) := by
  unfold receiveClaimEnd
  split
  · split
    · exact fansRest_raise _ s
    · exact .of_same rfl rfl rfl rfl
  · exact .refl s

/-- A STATUS leaves the slots, unless its serial beats the own one (R118, R119). -/
theorem receiveStatus_cases (p : Nat) (b : Octets) (s : State) :
    FansRest s (receiveStatus p b s) ∨ receiveStatus p b s = enterConfigFault s := by
  unfold receiveStatus duplicateTest
  split
  · split
    · split
      · exact .inl (.refl s)
      · split
        · exact .inr rfl
        · exact .inl (fansRest_raise _ s)
    · exact .inl (fansRest_raise _ s)
  · split
    · exact .inl (fansRest_raise _ s)
    · exact .inl ((FansRest.of_same rfl rfl rfl rfl : FansRest s (storeStatus p _ s)).trans
        ((iuRest_takeStatus _ _).fans.trans (fansRest_considerDemand _ _ _)))

/-- A frame taken leaves the slots, or takes the station into CONFIG_FAULT (R119, R147). -/
theorem dispatch_cases (f : Octets) (s : State) : FansRest s (dispatch f s) ∨
    ∃ t, FansRest s t ∧ dispatch f s = enterConfigFault t := by
  have heard : FansRest s (if frameSource f = s.station then s else refreshPeer (frameSource f) s) := by
    split
    · exact .refl s
    · exact .of_same rfl rfl rfl rfl
  unfold dispatch
  split
  · exact .inl (.refl s)
  · split
    · exact .inl (fansRest_raise _ s)
    · split
      · exact .inl (fansRest_raise _ s)
      · dsimp only
        split
        · unfold handOff
          split
          · exact (receiveStatus_cases _ _ _).imp heard.trans fun e => ⟨_, heard, e⟩
          · exact .inl (heard.trans (fansRest_receiveIncident _ _))
          · exact .inl (heard.trans (fansRest_receiveEnding _ _))
          · exact .inl (heard.trans (fansRest_receiveClaim _ _ _))
          · exact .inl (heard.trans (fansRest_receiveClaimEnd _ _ _))
          · exact .inl (heard.trans (fansRest_receiveClaimEnd _ _ _))
          · exact .inl heard
        · exact .inl (heard.trans (fansRest_raise _ _))

theorem fansRest_endDefer (id : Id) (s : State) : FansRest s (endDefer id s) := by
  unfold endDefer
  split
  · exact .of_same rfl rfl rfl rfl
  · split
    · unfold waitRate
      split
      · exact .refl s
      · exact .of_same rfl rfl rfl rfl
    · exact (FansRest.of_same rfl rfl rfl rfl : FansRest s (dropReannounce id s)).trans
        (iuRest_placeIncident _ _).fans

theorem fansRest_placeStatus (s : State) : FansRest s (placeStatus s) := by
  unfold placeStatus
  refine FansRest.trans ?_ (fansRest_place _ _)
  exact .of_same rfl rfl rfl rfl

theorem fansRest_endSpacing (s : State) : FansRest s (endSpacing s) := by
  have ended : FansRest s { s with ba := { s.ba with spacingDue := none } } := .of_same rfl rfl rfl rfl
  unfold endSpacing
  dsimp only
  split
  · exact ended.trans (fansRest_placeStatus _)
  · exact ended

/-- A CLAIM is placed only where no claim is GRANTED (R98). -/
theorem fansRest_testClaim (s : State) : FansRest s (testClaim s) := by
  refine (lineRest_testClaim s).fans fun c due ho => ⟨due, ?_⟩
  unfold testClaim
  rw [claimTest_of_own (by rw [ho]; simp), ho]

theorem fansRest_renewClaim {c : Claim} {due : Option Time} {s : State} (ho : s.cu.own = .granted c due) :
    FansRest s (renewClaim c s) := by
  refine (lineRest_renewClaim c s).fans fun c' due' ho' => ?_
  rw [ho] at ho'
  cases ho'
  exact grantStands_place _ (setOwn (.granted c none) s) c none rfl

theorem fansRest_startSend (s : State) : FansRest s (startSend s) := by
  unfold startSend
  split
  · exact .refl s
  · dsimp only
    split <;> exact .of_same rfl rfl rfl rfl

theorem fansRest_claimSent (b : Body) (s : State) : FansRest s (claimSent b s) := by
  have grant : GrantStands s (claimSent b s) := fun _ due ho => ⟨due, by rw [claimSent_own, ho]; rfl⟩
  have rest : (claimSent b s).fs = s.fs ∧ (claimSent b s).sj = s.sj ∧ (claimSent b s).no = s.no := by
    unfold claimSent
    split
    · split <;> exact ⟨rfl, rfl, rfl⟩
    · exact ⟨rfl, rfl, rfl⟩
  obtain ⟨hf, hj, hn⟩ := rest
  exact ⟨by rw [hf], by rw [hj], by rw [hn], grant⟩

theorem fansRest_returnFrame (f : TxFrame) (s : State) : FansRest s (returnFrame f s) := by
  unfold returnFrame
  split
  · exact (lineRest_refuseFrame _ s).fans (grantStands_refuseFrame _ s)
  · exact .of_same rfl rfl rfl rfl

theorem fansRest_collided (f : TxFrame) (s : State) : FansRest s (collided f s) := by
  unfold collided
  split
  · exact fansRest_raise _ s
  · split
    · exact .refl s
    · split
      · exact .of_same rfl rfl rfl rfl
      · split
        · split
          · exact .of_same rfl rfl rfl rfl
          · exact fansRest_returnFrame _ s
        · exact fansRest_returnFrame _ s

theorem fansRest_takeCharacter (o : Octet) (b : Bool) (s : State) : FansRest s (takeCharacter o b s) := by
  unfold takeCharacter
  dsimp only
  split
  · exact .of_same rfl rfl rfl rfl
  · exact .of_same rfl rfl rfl rfl
  · unfold arriveFrame
    dsimp only
    split <;> exact .of_same rfl rfl rfl rfl
  · exact .of_same rfl rfl rfl rfl

/-! ## What a slot can become -/

/-- What a slot `a` becomes as `b` where it is neither granted a start nor taken back from LOCAL: its drive stands
or is released (R60), no start begins (R67), a lockout stands (R81), an ABSENT slot stays so (R63), and without a
RUN target it does not come to wait for a start (R64). -/
structure SlotStep (a b : Slot) : Prop where
  drive : driveOf b.st = driveOf a.st ∨ driveOf b.st = none
  started : isStarting b.st = true → b.st = a.st
  locked : ∀ c, a.st = .lockedOut c → b.st = .lockedOut c
  fitted : b.st ≠ .absent → a.st ≠ .absent
  target : a.target = .off → b.target = .off
  noWait : a.target = .off → isStartWait a.st = false → isStartWait b.st = false

theorem SlotStep.refl (a : Slot) : SlotStep a a :=
  ⟨.inl rfl, fun _ => rfl, fun _ => id, id, id, fun _ => id⟩

theorem SlotStep.trans {a b c : Slot} (h : SlotStep a b) (g : SlotStep b c) : SlotStep a c where
  drive := g.drive.elim (fun e => e ▸ h.drive) .inr
  started := fun hc => by
    have e := g.started hc
    rw [e, h.started (e ▸ hc)]
  locked := fun x hx => g.locked x (h.locked x hx)
  fitted := fun hc => h.fitted (g.fitted hc)
  target := fun ht => g.target (h.target ht)
  noWait := fun ht hw => g.noWait (h.target ht) (h.noWait ht hw)

/-- A slot in the same state with the same target. -/
theorem SlotStep.of_same {a b : Slot} (hs : b.st = a.st) (ht : b.target = a.target) : SlotStep a b :=
  ⟨.inl (by rw [hs]), fun _ => hs, fun _ h => hs.trans h, fun h => hs ▸ h, fun h => ht.trans h, fun _ h => hs ▸ h⟩

/-- A slot that takes neither a drive nor a START_WAIT, and was neither LOCKED_OUT nor ABSENT. -/
theorem SlotStep.of_released {a b : Slot} (hd : driveOf b.st = none) (hw : isStartWait b.st = false)
    (hl : ∀ c, a.st ≠ .lockedOut c) (hf : a.st ≠ .absent) (ht : b.target = a.target) : SlotStep a b where
  drive := .inr hd
  started := fun h => by cases e : b.st <;> simp [e, isStarting, driveOf] at h hd
  locked := fun c h => absurd h (hl c)
  fitted := fun _ => hf
  target := fun h => ht.trans h
  noWait := fun _ _ => hw

/-- A slot that enters STOPPED and acts on the target it holds (R64, R83). -/
theorem SlotStep.of_stopped {a : Slot} (x : SlotCtx) (hl : ∀ c, a.st ≠ .lockedOut c) (hf : a.st ≠ .absent) :
    SlotStep a { a with st := stoppedWith x a.target } := by
  have drive : driveOf (stoppedWith x a.target) = none ∧ isStarting (stoppedWith x a.target) = false := by
    unfold stoppedWith
    cases a.target with
    | off => exact ⟨rfl, rfl⟩
    | run d => cases x.maintPending <;> exact ⟨rfl, rfl⟩
  refine ⟨.inr drive.1, fun e => ?_, fun c h => absurd h (hl c), fun _ => hf, id, fun ht _ => ?_⟩
  · rw [drive.2] at e
    cases e
  · change isStartWait (stoppedWith x a.target) = false
    rw [ht]
    rfl

theorem slotStep_setInput (i : SlotInput) (p : SlotPin) (sl : Slot) : SlotStep sl (sl.setInput i p) := by
  refine .of_same (by simp) ?_
  cases i <;> rfl

/-- A fault under drive, or at a start's end: the slot has been fitted and not LOCKED_OUT. -/
theorem slotStep_countFault {cause : LockCause} {other : SlotState} {sl : Slot} (hd : driveOf other = none)
    (hw : isStartWait other = false) (hl : ∀ c, sl.st ≠ .lockedOut c) (hf : sl.st ≠ .absent) :
    SlotStep sl (countFault cause other sl) := by
  unfold countFault
  split
  · exact .of_released rfl rfl hl hf rfl
  · exact .of_released hd hw hl hf rfl

theorem runningWith_cases (x : SlotCtx) (d : Direction) (t : Target) :
    runningWith x d t = .running d ∨ runningWith x d t = coastFrom x := by
  unfold runningWith
  split
  · exact .inr rfl
  · split
    · exact .inl rfl
    · exact .inr rfl

theorem slotStep_runAsserted (x : SlotCtx) (sl : Slot) : SlotStep sl (runAsserted x sl) := by
  unfold runAsserted
  split
  case h_1 d due h =>
    rcases runningWith_cases x d sl.target with e | e
    · refine ⟨.inl (by rw [e, h]; rfl), by simp [e, isStarting], by simp [h], by simp [h], id, ?_⟩
      simp [e, isStartWait]
    · exact .of_released (by rw [e]; rfl) (by rw [e]; rfl) (by simp [h]) (by simp [h]) rfl
  case h_2 h | h_3 h => exact .of_released rfl rfl (by simp [h]) (by simp [h]) rfl
  all_goals exact .refl sl

theorem slotStep_runReleased (x : SlotCtx) (sl : Slot) : SlotStep sl (runReleased x sl) := by
  unfold runReleased
  split
  case h_1 h =>
    split
    · exact .refl sl
    · exact slotStep_countFault rfl rfl (by simp [h]) (by simp [h])
  all_goals exact .refl sl

theorem slotStep_tripAsserted (x : SlotCtx) (sl : Slot) : SlotStep sl (tripAsserted x sl) := by
  unfold tripAsserted
  split
  case h_1 h | h_2 h => exact slotStep_countFault rfl rfl (by simp [h]) (by simp [h])
  case h_3 h | h_4 h | h_5 h => exact .of_released rfl rfl (by simp [h]) (by simp [h]) rfl
  all_goals exact .refl sl

theorem slotStep_tripReleased (x : SlotCtx) (sl : Slot) : SlotStep sl (tripReleased x sl) := by
  unfold tripReleased
  split
  case h_1 h => exact .of_released rfl rfl (by simp [h]) (by simp [h]) rfl
  all_goals exact .refl sl

theorem slotStep_actOnInput (x : SlotCtx) (i : SlotInput) (sl : Slot) : SlotStep sl (actOnInput x i sl) := by
  unfold actOnInput
  split
  · split
    · exact slotStep_runAsserted x sl
    · exact slotStep_runReleased x sl
  · split
    · exact slotStep_tripAsserted x sl
    · exact slotStep_tripReleased x sl
  · exact .refl sl

theorem startDue_some {sl : Slot} {t : Time} (h : startDue sl = some t) : ∃ d, sl.st = .starting d t := by
  unfold startDue at h
  split at h <;> cases h
  exact ⟨_, ‹_›⟩

theorem coastDue_some {sl : Slot} {t : Time} (h : coastDue sl = some t) : sl.st = .coasting t := by
  unfold coastDue at h
  split at h <;> cases h
  assumption

theorem tripHoldDue_some {sl : Slot} {t : Time} (h : tripHoldDue sl = some t) :
    sl.st = .tripped (some t) := by
  unfold tripHoldDue at h
  split at h
  · subst h; assumption
  all_goals cases h

theorem slotStep_startExpired {sl : Slot} {t : Time} (x : SlotCtx) (h : startDue sl = some t) :
    SlotStep sl (startExpired x sl) := by
  obtain ⟨d, h⟩ := startDue_some h
  exact slotStep_countFault rfl rfl (by simp [h]) (by simp [h])

theorem slotStep_coastExpired {sl : Slot} {t : Time} (x : SlotCtx) (h : coastDue sl = some t) :
    SlotStep sl (coastExpired x sl) := by
  have h := coastDue_some h
  unfold coastExpired
  split
  · exact .of_released rfl rfl (by simp [h]) (by simp [h]) rfl
  · exact .of_stopped x (by simp [h]) (by simp [h])

theorem slotStep_tripHoldExpired {sl : Slot} {t : Time} (x : SlotCtx) (h : tripHoldDue sl = some t) :
    SlotStep sl (tripHoldExpired x sl) := by
  have h := tripHoldDue_some h
  unfold tripHoldExpired
  split <;> exact .of_released rfl rfl (by simp [h]) (by simp [h]) rfl

theorem slotStep_startingLevels (x : SlotCtx) (sl : Slot) : SlotStep sl (startingLevels x sl) := by
  have act (p : Bool) {f : SlotCtx → Slot → Slot} (hf : ∀ b, SlotStep b (f x b)) {b : Slot}
      (hb : SlotStep sl b) : SlotStep sl (if p then f x b else b) := by
    split
    · exact hb.trans (hf b)
    · exact hb
  unfold startingLevels
  split
  · exact .refl sl
  all_goals exact act _ (slotStep_runAsserted x) (act _ (slotStep_tripAsserted x) (.of_same rfl rfl))

theorem slotStep_intoLocal (sl : Slot) : SlotStep sl (intoLocal sl) := by
  unfold intoLocal
  split
  case h_1 | h_2 => exact .refl sl
  all_goals rename_i h; exact .of_released rfl rfl (by simp [h]) (by simp [h]) rfl

/-- What dropping a pending entry makes of a slot: a STOPPED one that holds a RUN target waits to start (R83). -/
def unpended (now : Time) (sl : Slot) : Slot :=
  match sl.st with
  | .stopped => { sl with st := stoppedWith ⟨now, false⟩ sl.target }
  | .startWait _ | .starting _ _ | .running _ | .coasting _ | .tripped _ | .lockedOut _
  | .localControl | .absent => sl

theorem dropMaintPending_slot (s : State) (k : SlotNo) :
    (dropMaintPending s).slot k = unpended s.now (s.slot k) := Quad.get_map _ _ _

theorem slotStep_unpended (now : Time) (sl : Slot) : SlotStep sl (unpended now sl) := by
  unfold unpended
  split
  case h_1 h => exact .of_stopped _ (by simp [h]) (by simp [h])
  all_goals exact .refl sl

/-! ## CONFIG_FAULT is entered as R171 says -/

theorem enterConfigFault_slot (s : State) (k : SlotNo) :
    (enterConfigFault s).slot k = handTarget ⟨s.now, false⟩ .off (s.slot k) := by
  unfold enterConfigFault
  rw [handTargets_slot, Quad.get_all]
  rfl

theorem stateOnTarget_off_waits (x : SlotCtx) (st : SlotState) :
    isStartWait (stateOnTarget x .off st) = false := by cases st <;> rfl

/-- A slot that is handed OFF (R64, R171). -/
theorem slotStep_handOff (x : SlotCtx) (sl : Slot) : SlotStep sl (handTarget x .off sl) := by
  have st := handTarget_st x .off sl
  refine ⟨?_, fun h => ?_, fun c h => ?_, fun h => ?_, fun h => ?_, fun _ _ => ?_⟩
  · rw [st]; exact stateOnTarget_drive x .off sl.st
  · rw [st, stateOnTarget_starting] at h
    rw [st, stateOnTarget_of_starting _ _ _ h]
  · rw [st, h]; rfl
  · rintro e
    rw [st, e] at h
    exact h rfl
  · by_cases e : sl.st = .absent
    · unfold handTarget
      rw [e]
      exact h
    · exact handTarget_target _ _ _ e
  · rw [st]; exact stateOnTarget_off_waits x sl.st

theorem faultHolds_enterConfigFault (s : State) : FaultHolds (enterConfigFault s) where
  records := rfl
  view := rfl
  peers := rfl
  tx := rfl
  targets := rfl
  pace := rfl
  slotTargets := fun k h => by
    rw [enterConfigFault_slot] at h ⊢
    refine handTarget_target _ _ _ fun e => h ?_
    rw [handTarget_st, e]
    rfl
  noWait := fun k => by rw [enterConfigFault_slot, handTarget_st]; exact stateOnTarget_off_waits _ _
  noSettle := fun c due => by
    rw [enterConfigFault_own]
    cases s.cu.own <;> simp [faultOwn]
  noStatus := rfl
  noJoin := rfl
  noEntry := rfl
  lamps := ⟨rfl, rfl, rfl⟩

/-! ## Every command -/

/-- What most effects do: every slot takes a `SlotStep`, a GRANTED claim and the fault outputs stand, and
CONFIG_FAULT is entered as R171 says. -/
structure Steps (s x : State) : Prop where
  slots : ∀ k, SlotStep (s.slot k) (x.slot k)
  grant : GrantStands s x
  flash : x.no.flash = s.no.flash
  fault : x.sj.mode = .configFault → s.sj.mode = .configFault ∨ FaultHolds x

theorem FansRest.steps {s x : State} (h : FansRest s x) : Steps s x :=
  ⟨fun k => by rw [slot_congr h.slots]; exact .refl _, h.grant, h.flash, fun e => .inl (h.mode ▸ e)⟩

theorem FansRest.steps_trans {s t x : State} (h : FansRest s t) (g : Steps t x) : Steps s x :=
  ⟨fun k => slot_congr h.slots k ▸ g.slots k, h.grant.trans g.grant, g.flash.trans h.flash,
    fun e => (g.fault e).imp_left fun e => h.mode ▸ e⟩

/-- Only the slots' own items differ, and no mode changes to CONFIG_FAULT. -/
theorem Steps.of_slots {s x : State} (hs : ∀ k, SlotStep (s.slot k) (x.slot k)) (ho : x.cu.own = s.cu.own)
    (hf : x.no.flash = s.no.flash) (hm : x.sj.mode = .configFault → s.sj.mode = .configFault) : Steps s x :=
  ⟨hs, .of_own ho, hf, fun e => .inl (hm e)⟩

theorem steps_enterConfigFault (s : State) : Steps s (enterConfigFault s) where
  slots := fun k => by rw [enterConfigFault_slot]; exact slotStep_handOff _ _
  grant := fun c due ho => ⟨due, by rw [enterConfigFault_own, ho]; rfl⟩
  flash := rfl
  fault := fun _ => .inr (faultHolds_enterConfigFault s)

/-- One slot acts. -/
theorem steps_slotActs {s : State} {k : SlotNo} {f : SlotCtx → Slot → Slot} (t : Time)
    (h : SlotStep (s.slot k) (f (reachTime t s).slotCtx (s.slot k))) :
    Steps s (slotActs k f (reachTime t s)) := by
  refine .of_slots (fun j => ?_) rfl rfl id
  unfold slotActs
  by_cases hj : j = k
  · subst hj
    rw [setSlot_slot_same]
    exact h
  · rw [setSlot_slot_ne _ _ hj]
    exact .refl _

theorem steps_takeStartingLevels (s : State) : Steps s (takeStartingLevels s) := by
  refine .of_slots (fun k => ?_) rfl rfl id
  have : (takeStartingLevels s).slot k = startingLevels s.slotCtx (s.slot k) := Quad.get_map _ _ _
  rw [this]
  exact slotStep_startingLevels _ _

theorem enterMaintenance_slot (s : State) (k : SlotNo) :
    (enterMaintenance s).slot k = intoLocal (s.slot k) := Quad.get_map _ _ _

theorem steps_enterMaintenance (s : State) : Steps s (enterMaintenance s) :=
  .of_slots (fun k => by rw [enterMaintenance_slot]; exact slotStep_intoLocal _) rfl rfl (fun e => by cases e)

theorem steps_dropMaintPending (s : State) : Steps s (dropMaintPending s) :=
  .of_slots (fun k => by rw [dropMaintPending_slot]; exact slotStep_unpended _ _) rfl rfl id

/-- What a command's own effect does to the slots: the four forms it can have. -/
inductive OwnMoves : Instr → State → State → Prop where
  | steps (i : Instr) (s x : State) (h : Steps s x) : OwnMoves i s x
  | phase (k : SlotNo) (s : State) (t : Time) (due : (s.no.flash.get k).due = some t) :
      OwnMoves (.slotFltPhase k) s { reachTime t s with no := { s.no with
        flash := s.no.flash.set k
          (flashToggle (max s.now t) (patternOf (s.slot k).st) (s.no.flash.get k)) } }
  | settle (c : Claim) (t : Time) (s : State) (own : s.cu.own = .settling c (some t)) :
      OwnMoves .settleExpiry s (settle c (reachTime t s))
  | exit (u : Su) (t : Time) (s : State) (released : s.su.maint.pin = false)
      (mode : s.sj.mode = .maintenance) :
      OwnMoves (.debounceExpiry .maint) s (exitMaintenance (setSu u (reachTime t s)))

theorem steps_timed {due : Option Time} {body : State → State} {s x : State}
    (h : timed due body s = some x) (hb : ∀ s, FansRest s (body s)) (i : Instr) : OwnMoves i s x := by
  obtain ⟨t, -, rfl⟩ := Option.map_eq_some_iff.1 h
  exact .steps _ _ _ ((fansRest_reachTime t s).trans (hb _)).steps

theorem steps_taken {k : FrameKind} {s x : State} (h : taken k s = some x) (i : Instr) :
    OwnMoves i s x := by
  unfold taken at h
  split at h
  · cases h
  · split at h
    · rename_i f fs _ _
      cases h
      have rest : FansRest s (setRx fs s) := .of_same rfl rfl rfl rfl
      refine .steps _ _ _ ?_
      rcases dispatch_cases f (setRx fs s) with g | ⟨t, g, e⟩
      · exact (rest.trans g).steps
      · rw [e]
        exact (rest.trans g).steps_trans (steps_enterConfigFault t)
    · cases h

theorem steps_characterEffect {ready : Bool} {o : Octet} {stop : Bool} {s x : State}
    (h : characterEffect ready o stop s = some x) (i : Instr) : OwnMoves i s x := by
  unfold characterEffect at h
  split at h
  · exact steps_timed h fansRest_startSend i
  · unfold whenReady at h
    split at h
    · cases h
      exact .steps _ _ _ (fansRest_takeCharacter _ _ _).steps
    · cases h

/-- What the debounced level of an input hands on takes every slot a `SlotStep`, but for a maintenance exit
(R83, R86). -/
theorem inputActs_cases (n : Input) (s : State) : Steps s (inputActs n s) ∨
    (n = .maint ∧ s.su.maint.level = false ∧ s.sj.mode = .maintenance ∧ inputActs n s = exitMaintenance s) := by
  unfold inputActs
  split
  · exact .inl (fansRest_alarmEvent s).steps
  · exact .inl (fansRest_commandEdge (fansRest_directionCommand _ _) s).steps
  · exact .inl (fansRest_commandEdge (fansRest_directionCommand _ _) s).steps
  · exact .inl (fansRest_commandEdge fansRest_standDown s).steps
  · unfold maintReported
    split
    · exact .inl (.of_slots (fun _ => .refl _) rfl rfl id)
    · exact .inl (.of_slots (fun _ => .refl _) rfl rfl id)
    · rename_i hv hm
      exact .inr ⟨rfl, hv, hm, rfl⟩
    · split
      · exact .inl (steps_dropMaintPending s)
      · exact .inl (FansRest.refl s).steps
    · split
      · exact .inl (steps_dropMaintPending s)
      · exact .inl (FansRest.refl s).steps
    all_goals exact .inl (FansRest.refl s).steps
  · exact .inl (fansRest_testConflictLamp s).steps
  · exact .inl (fansRest_testConflictLamp s).steps
  · exact .inl (FansRest.refl s).steps
  · exact .inl (FansRest.refl s).steps

/-- The debounced level of a niche input is taken (R133, R134). -/
theorem ownMoves_debounce {n : Input} {s x : State} (h : effect (.debounceExpiry n) s = some x) :
    OwnMoves (.debounceExpiry n) s x := by
  obtain ⟨t, -, rfl⟩ := Option.map_eq_some_iff.1 h
  have rest (u : Su) : FansRest s (setSu u (reachTime t s)) :=
    (fansRest_reachTime t s).trans (fansRest_setSu _ _)
  rcases inputActs_cases n (setSu (s.su.setInput n (inputTaken (s.su.input n))) (reachTime t s)) with
    h | ⟨rfl, released, mode, e⟩
  · exact .steps _ _ _ ((rest _).steps_trans h)
  · have moves := OwnMoves.exit (s.su.setInput .maint (inputTaken (s.su.input .maint))) t s released mode
    rw [← e] at moves
    exact moves

/-- What each command's own effect does to the slots. -/
theorem effect_moves {i : Instr} {s x : State} (h : effect i s = some x) : OwnMoves i s x := by
  have iu {s t : State} (e : IuRest s t) : FansRest s t := e.fans
  cases i
  case debounceExpiry n => exact ownMoves_debounce h
  all_goals simp only [effect] at h
  case sensorRound => exact steps_timed h (fun _ => .of_same rfl rfl rfl rfl) _
  case sensorSample a b c =>
    unfold sampleEffect at h
    split at h
    · cases h
    · exact steps_timed h (fun s => (FansRest.of_same rfl rfl rfl rfl : FansRest s (beginTransaction _ s)).trans
        (fansRest_takeSample _ _ _)) _
  case maintenanceEntry =>
    unfold whenReady at h
    split at h
    · cases h
      exact .steps _ _ _ (steps_enterMaintenance s)
    · cases h
  case slotInputFilterExpiry k n =>
    obtain ⟨t, -, rfl⟩ := Option.map_eq_some_iff.1 h
    exact .steps _ _ _ (steps_slotActs t ((slotStep_setInput n _ _).trans (slotStep_actOnInput _ n _)))
  case slotInputInitialLevels =>
    obtain ⟨t, -, rfl⟩ := Option.map_eq_some_iff.1 h
    exact .steps _ _ _ ((fansRest_reachTime t s).steps_trans (steps_takeStartingLevels _))
  case startTimerExpiry k =>
    obtain ⟨t, ht, rfl⟩ := Option.map_eq_some_iff.1 h
    exact .steps _ _ _ (steps_slotActs t (slotStep_startExpired _ ht))
  case coastTimerExpiry k =>
    obtain ⟨t, ht, rfl⟩ := Option.map_eq_some_iff.1 h
    exact .steps _ _ _ (steps_slotActs t (slotStep_coastExpired _ ht))
  case tripHoldExpiry k =>
    obtain ⟨t, ht, rfl⟩ := Option.map_eq_some_iff.1 h
    exact .steps _ _ _ (steps_slotActs t (slotStep_tripHoldExpired _ ht))
  case paceUpdate => exact steps_timed h fansRest_paceUpdate _
  case changeTimerExpiry => exact steps_timed h (fun _ => .of_same rfl rfl rfl rfl) _
  case yieldHoldExpiry id => exact steps_timed h (fun _ => .of_same rfl rfl rfl rfl) _
  case incidentReceived => exact steps_taken h _
  case endReceived => exact steps_taken h _
  case statusReceived => exact steps_taken h _
  case claimReceived => exact steps_taken h _
  case withdrawReceived => exact steps_taken h _
  case releaseReceived => exact steps_taken h _
  case invalidFrameTaken => exact steps_taken h _
  case reannounce id => exact steps_timed h (fansRest_endDefer id) _
  case endRepeat id =>
    exact steps_timed h (fun s => (FansRest.of_same rfl rfl rfl rfl : FansRest s
      { s with iu := { s.iu with endRepeats := dropFirst id s.iu.endRepeats } }).trans
      (iu (iuRest_placeEnd _ _))) _
  case endingTimerExpiry id => exact steps_timed h (fun _ => .of_same rfl rfl rfl rfl) _
  case peerSilent p =>
    exact steps_timed h (fun s => (FansRest.of_same rfl rfl rfl rfl : FansRest s (silencePeer p s)).trans
      (iu (iuRest_grown _))) _
  case claimPlacement =>
    unfold whenReady at h
    split at h
    · cases h
      exact .steps _ _ _ (fansRest_testClaim s).steps
    · cases h
  case claimSpacingExpiry => exact steps_timed h (fun _ => .of_same rfl rfl rfl rfl) _
  case settleExpiry =>
    unfold settleEffect at h
    split at h
    · rename_i c due ho
      obtain ⟨t, rfl, rfl⟩ := Option.map_eq_some_iff.1 h
      exact .settle c t s ho
    · cases h
    · cases h
  case claimRenewal =>
    unfold renewEffect at h
    split at h
    · rename_i c due ho
      obtain ⟨t, -, rfl⟩ := Option.map_eq_some_iff.1 h
      exact .steps _ _ _ ((fansRest_reachTime t s).trans (fansRest_renewClaim (s := reachTime t s) ho)).steps
    · cases h
    · cases h
  case claimEntryExpiry p => exact steps_timed h (fun _ => .of_same rfl rfl rfl rfl) _
  case presenceTimerExpiry => exact steps_timed h fansRest_placeStatus _
  case statusSpacingExpiry => exact steps_timed h fansRest_endSpacing _
  case healthFlagExpiry f => exact steps_timed h (fun _ => .of_same rfl rfl rfl rfl) _
  case sendStart => exact steps_timed h fansRest_startSend _
  case sendSuccess =>
    unfold successEffect at h
    split at h
    · cases h
    · exact steps_timed h (fun s => (FansRest.of_same rfl rfl rfl rfl : FansRest s (endAttempt s)).trans
        (fansRest_claimSent _ _)) _
  case collision k b =>
    unfold collisionEffect at h
    split at h
    · cases h
    · split at h
      · cases h
      · split at h
        · cases h
        · exact steps_timed h (fun s => (FansRest.of_same rfl rfl rfl rfl : FansRest s (endAttempt s)).trans
            (fansRest_collided _ _)) _
  case receiverSync => exact steps_timed h (fun _ => .of_same rfl rfl rfl rfl) _
  case frameArrival o => exact steps_characterEffect h _
  case rxFrameDiscard o b => exact steps_characterEffect h _
  case rxTruncation => exact steps_timed h (fun _ => .of_same rfl rfl rfl rfl) _
  case cmdLampExpiry l => exact steps_timed h (fansRest_lampExpired l) _
  case slotFltPhase k =>
    obtain ⟨t, ht, rfl⟩ := Option.map_eq_some_iff.1 h
    exact .phase k s t ht
  case characterReceived o b => exact steps_characterEffect h _
  all_goals cases h

end Sys2Proof.Machine
end

section
/-! PROOFS. Lockouts stand (O57), drives are never exchanged (O56), and a slot starts only under a grant (O52): what
`effect_moves` says of every command, carried through what follows it. -/

namespace Sys2Proof.Machine

/-! ## The end of JOINING -/

/-- The held alarm event leaves the slots, the mode and the Claim Unit (R170). -/
theorem fansRest_heldAlarm (s : State) : FansRest s (if s.iu.heldAlarm then
    actOnAlarm { s with iu := { s.iu with heldAlarm := false } } else s) ∧
    (if s.iu.heldAlarm then actOnAlarm { s with iu := { s.iu with heldAlarm := false } } else s).cu = s.cu ∧
    (if s.iu.heldAlarm then actOnAlarm { s with iu := { s.iu with heldAlarm := false } } else s).now = s.now := by
  split
  · have rest := iuRest_actOnAlarm { s with iu := { s.iu with heldAlarm := false } }
    have start : FansRest s { s with iu := { s.iu with heldAlarm := false } } := .of_same rfl rfl rfl rfl
    exact ⟨start.trans rest.fans, rest.cu, rest.now⟩
  · exact ⟨.refl s, rfl, rfl⟩

theorem leaveJoining_fans (s : State) : (leaveJoining s).fs.slots = s.fs.slots ∧
    (leaveJoining s).no.flash = s.no.flash ∧ (leaveJoining s).cu = s.cu ∧ (leaveJoining s).now = s.now ∧
    (leaveJoining s).sj.mode ≠ .configFault := by
  obtain ⟨rest, cu, now⟩ := fansRest_heldAlarm (setMode (if anyActive { s with sj := { s.sj with joinDue := none } }
    then .incident else .quiet) { s with sj := { s.sj with joinDue := none } })
  refine ⟨rest.slots, rest.flash, cu, now, fun e => ?_⟩
  exact listMode_ne_fault { s with sj := { s.sj with joinDue := none } } (rest.mode.symm.trans e)

theorem exec_join {t : Time} {s : State} (due : s.sj.joinDue = some t) : exec .joinTimerExpiry s =
    .next (closeEvent (joined t s) (maintAtJoin (joined t s))) := by
  simp only [exec, execJoinTimerExpiry]
  rw [due]
  rfl

theorem join_held {t : Time} {s : State} (due : s.sj.joinDue = some t) :
    (closeEvent (joined t s) (maintAtJoin (joined t s))).sj.held = s.sj.held :=
  (ground_exec rfl (exec_join due)).held

/-- What the end of JOINING leaves of a slot: what its two closings make of it (R170). -/
theorem join_slotCloses (t : Time) (s : State) (k : SlotNo) : SlotCloses (max s.now t) (s.slot k)
    ((closeEvent (joined t s) (maintAtJoin (joined t s))).slot k) := by
  obtain ⟨hs, -, -, hn, -⟩ := leaveJoining_fans (reachTime t s)
  have first : Closes (leaveJoining (reachTime t s)) (joined t s) :=
    (closes_follow _ _).trans (closes_placeEarly _)
  have second := closes_closeEvent (joined t s) (maintAtJoin (joined t s))
  have start : (leaveJoining (reachTime t s)).slot k = s.slot k := slot_congr hs k
  obtain ⟨hn', -, -, -, hf, -⟩ := maintAtJoin_rest (joined t s)
  have c := first.slots k
  have d := second.slots k
  rw [start, hn] at c
  rw [slot_congr hf, hn', first.now, hn] at d
  exact c.trans d

/-! ## Lockouts (O57) -/

theorem slotHeld_locked {sl : Slot} {c : LockCause} (h : sl.st = .lockedOut c) :
    (slotHeld true sl).st = .lockedOut c := by
  unfold slotHeld
  rw [h]
  rfl

/-- What the settle timer's expiry makes of the slots and the own claim: a grant starts the claim's slot, which
waits, and a WITHDRAW leaves the slots (R100). -/
theorem settle_cases (c : Claim) (s : State) :
    (∃ d, (s.slot c.slot).st = .startWait d ∧ claimsAhead c s.cu.view < 2 ∧
      settle c s = setSlot c.slot { s.slot c.slot with st := .starting d (s.now + startTime) }
        (setOwn (.granted c (some (s.now + renewalTime))) (allEarly s))) ∨
    (¬ (claimsAhead c s.cu.view < 2 ∧ isStartWait (s.slot c.slot).st = true) ∧
      settle c s = withdrawClaim c s) := by
  by_cases h : claimsAhead c s.cu.view < 2 ∧ isStartWait (s.slot c.slot).st = true
  · left
    unfold settle
    rw [if_pos h]
    obtain ⟨ahead, waits⟩ := h
    obtain ⟨d, hd⟩ : ∃ d, (s.slot c.slot).st = .startWait d := by
      cases hd : (s.slot c.slot).st with
      | startWait d => exact ⟨d, rfl⟩
      | _ => rw [hd] at waits; cases waits
    refine ⟨d, hd, ahead, ?_⟩
    unfold granted
    rw [hd]
    rfl
  · right
    unfold settle
    exact ⟨h, if_neg h⟩

/-- The settle timer's expiry leaves every slot but the claim's, which it starts (R100). -/
theorem settle_slot (c : Claim) (s : State) (k : SlotNo) : (settle c s).slot k = s.slot k ∨
    (c.slot = k ∧ ∃ d, (s.slot k).st = .startWait d ∧
      (settle c s).slot k = { s.slot k with st := .starting d (s.now + startTime) }) := by
  rcases settle_cases c s with ⟨d, hd, -, e⟩ | ⟨-, e⟩
  · rw [e]
    by_cases hk : k = c.slot
    · subst hk
      exact .inr ⟨rfl, d, hd, setSlot_slot_same _ _ _⟩
    · left
      rw [setSlot_slot_ne _ _ hk]
      rfl
  · left
    rw [e]
    exact slot_of_fs (lineRest_withdrawClaim c s).fs k

/-- Settles O57: a `SlotStep` and the closing keep a lockout, a grant is for a slot that waits, and an external reset
holds the slot locked out. -/
theorem lockoutsStand : Obligations.LockoutsStand := by
  intro i s u k c h hk hp hr hm
  have drive {v : State} (hv : (v.slot k).st = .lockedOut c) :
      (v.slot k).st = .lockedOut c ∧ driveOut v k = none := by
    refine ⟨hv, ?_⟩
    unfold driveOut
    rw [hv]
    split <;> rfl
  refine drive ?_
  cases exec_answers h with
  | powerOn => exact absurd rfl hp
  | external => rw [holdReset_slot]; exact slotHeld_locked hk
  | release w => exact absurd rfl (hr w)
  | level => exact hk
  | pin j n v p => rw [setSlot_setInput_st]; exact hk
  | idle => exact hk
  | join t => exact ((join_slotCloses t s k).locked c).2 hk
  | event _ _ x plain join own =>
    refine (((closes_closeEvent s x).slots k).locked c).2 ?_
    cases effect_moves own with
    | steps _ _ _ g => exact (g.slots k).locked c hk
    | phase => exact hk
    | settle c' t =>
      rcases settle_slot c' (reachTime t s) k with e | ⟨-, d, hd, -⟩
      · rw [e]; exact hk
      · rw [show (s.slot k).st = .startWait d from hd] at hk
        cases hk
    | exit _ _ _ released mode => exact absurd ⟨rfl, mode⟩ hm

/-! ## Drives (O56) -/

/-- A drive stands or is released (R60). -/
def DriveStands (a b : SlotState) : Prop := driveOf b = driveOf a ∨ driveOf b = none

theorem DriveStands.refl (a : SlotState) : DriveStands a a := .inl rfl

theorem DriveStands.trans {a b c : SlotState} (h : DriveStands a b) (g : DriveStands b c) : DriveStands a c := by
  rcases g with e | e
  · exact h.imp e.trans e.trans
  · exact .inr e

/-- Where slot `k` of `s` may come to a drive toward `d` (R67, R75, R86). -/
def MayDrive (i : Instr) (s : State) (k : SlotNo) (d : Direction) : Prop :=
  (i = .settleExpiry ∧ ∃ c t, s.cu.own = .settling c (some t) ∧ c.slot = k ∧
    (s.slot k).st = .startWait d) ∨
  (i = .debounceExpiry .maint ∧ s.sj.mode = .maintenance ∧ s.su.maint.pin = false ∧
    (s.slot k).st = .localControl ∧ (s.slot k).runFb.level = true ∧
    (s.slot k).tripFb.level = false ∧
    d = (if (s.slot k).dirFb.level then .towardB else .towardA))

theorem exitMaintenance_slot (s : State) (k : SlotNo) :
    (exitMaintenance s).slot k = outOfLocal s.slotCtx (s.slot k) := Quad.get_map _ _ _

/-- A maintenance exit drives no motor but a LOCAL one that runs, toward the side DIR_FB reads (R86). -/
theorem outOfLocal_drive (x : SlotCtx) (sl : Slot) : DriveStands sl.st (outOfLocal x sl).st ∨
    (sl.st = .localControl ∧ sl.runFb.level = true ∧ sl.tripFb.level = false ∧
      (outOfLocal x sl).st = .running (if sl.dirFb.level then .towardB else .towardA)) := by
  unfold outOfLocal
  split
  · rename_i hl
    split
    · exact .inl (.inr rfl)
    · rename_i ht
      split
      · rename_i hrun
        exact .inr ⟨hl, hrun, by simpa using ht, rfl⟩
      · exact .inl (.inr rfl)
  · split
    · exact .inl (.inr rfl)
    · exact .inl (.inr rfl)
  · exact .inl (.refl _)
  all_goals exact .inl (.refl _)

/-- An own effect leaves a drive or releases it, or gives one where it may. -/
theorem OwnMoves.drive {i : Instr} {s x : State} (moves : OwnMoves i s x) (k : SlotNo) :
    DriveStands (s.slot k).st (x.slot k).st ∨
      (driveOf (s.slot k).st = none ∧ ∃ d, driveOf (x.slot k).st = some d ∧ MayDrive i s k d) := by
  cases moves with
  | steps _ _ _ g => exact .inl (g.slots k).drive
  | phase => exact .inl (.refl _)
  | settle c t _ own =>
    rcases settle_slot c (reachTime t s) k with e | ⟨hk, d, hd, e⟩
    · rw [e]; exact .inl (.refl _)
    · have waits : (s.slot k).st = .startWait d := hd
      refine .inr ⟨by rw [waits]; rfl, d, by rw [e]; rfl, .inl ⟨rfl, c, t, own, hk, waits⟩⟩
  | exit v t _ released mode =>
    rw [exitMaintenance_slot]
    rcases outOfLocal_drive (setSu v (reachTime t s)).slotCtx (s.slot k) with e | ⟨hl, hrun, htrip, e⟩
    · exact .inl e
    · have hl' : (s.slot k).st = .localControl := hl
      exact .inr ⟨by rw [hl']; rfl, _, congrArg driveOf e,
        .inr ⟨rfl, mode, released, hl', hrun, htrip, rfl⟩⟩

theorem driveOut_of_stands {s u : State} {k : SlotNo} (held : u.sj.held = s.sj.held)
    (h : DriveStands (s.slot k).st (u.slot k).st) : driveOut u k = driveOut s k ∨ driveOut u k = none := by
  unfold driveOut
  rw [held]
  split
  · exact .inl rfl
  · exact h

theorem slotReleased_drive (now : Time) (fitted : Bool) (sl : Slot) :
    driveOf (slotReleased now fitted sl).st = none := by
  unfold slotReleased
  split
  · split <;> rfl
  · rfl

theorem releaseReset_slot (w : BitVec 28) (s : State) (k : SlotNo) :
    ∃ fitted, (releaseReset w s).slot k = slotReleased s.now fitted (s.slot k) :=
  ⟨_, Quad.get_mapNo _ _ _⟩

/-- What a command does to a drive output, of a part that is not held in reset. -/
theorem answers_drive {i : Instr} {s u : State} (k : SlotNo) (hr : HeldInReset s) (h : Answers i s u) :
    (driveOut u k = driveOut s k ∨ driveOut u k = none) ∨
      (driveOut s k = none ∧ ∃ d, driveOut u k = some d ∧ MayDrive i s k d) := by
  cases h with
  | powerOn => exact .inl (.inr rfl)
  | external => exact .inl (.inr rfl)
  | release w =>
    obtain ⟨fitted, e⟩ := releaseReset_slot w s k
    refine .inl (.inr ?_)
    unfold driveOut
    rw [e, slotReleased_drive]
    split <;> rfl
  | level => exact .inl (.inl rfl)
  | pin j n v p =>
    refine .inl (driveOut_of_stands rfl ?_)
    rw [setSlot_setInput_st]
    exact .refl _
  | idle => exact .inl (.inl rfl)
  | join t _ due =>
    exact .inl (driveOut_of_stands (join_held due) (join_slotCloses t s k).drive)
  | event _ _ x plain join own =>
    by_cases hh : s.sj.held = true
    · rw [hr.no_effect plain join own hh]
      exact .inl (.inl rfl)
    have held := closes_held s own
    have closing : DriveStands (x.slot k).st ((closeEvent s x).slot k).st :=
      ((closes_closeEvent s x).slots k).drive
    have out (t : State) (e : t.sj.held = s.sj.held) : driveOut t k = driveOf (t.slot k).st := by
      unfold driveOut
      rw [e, if_neg hh]
    rcases (effect_moves own).drive k with g | ⟨none, d, hd, may⟩
    · exact .inl (driveOut_of_stands held (g.trans closing))
    · rw [out _ held, out s rfl, none]
      rcases closing with e | e
      · exact .inr ⟨rfl, d, e.trans hd, may⟩
      · exact .inl (.inr e)

/-- Settles O56: an own effect exchanges no drive and gives one only at a grant or a maintenance exit, and what
follows it gives none. -/
theorem drivesAreNeverExchanged : Obligations.DrivesAreNeverExchanged := by
  intro i s u k h hr
  rcases answers_drive k hr (exec_answers h) with stands | ⟨none, d, hd, may⟩
  · refine ⟨fun d hd => ?_, fun d hn hd => ?_⟩
    · rw [← hd]; exact stands
    · rcases stands with e | e
      · rw [e, hn] at hd; cases hd
      · rw [e] at hd; cases hd
  · refine ⟨fun d hd' => (by rw [none] at hd'; cases hd'), fun d' _ hd' => ?_⟩
    rw [hd] at hd'
    cases hd'
    exact may

/-! ## Starts are granted (O52) -/

/-- Where no start begins and a grant stands, a start is still granted. -/
theorem StartsGranted.step {s x : State} (h : StartsGranted s)
    (started : ∀ k, isStarting (x.slot k).st = true → (x.slot k).st = (s.slot k).st) (g : GrantStands s x) :
    StartsGranted x := by
  intro k hk
  obtain ⟨c, due, ho, hc⟩ := h k (by rw [← started k hk]; exact hk)
  obtain ⟨due', ho'⟩ := g c due ho
  exact ⟨c, due', ho', hc⟩

theorem StartsGranted.closes {s x : State} (h : StartsGranted s) (c : Closes s x) (g : GrantStands s x) :
    StartsGranted x := h.step (fun k => (c.slots k).started) g

theorem StartsGranted.of_none {s : State} (h : ∀ k, isStarting (s.slot k).st = false) : StartsGranted s :=
  fun k hk => by rw [h k] at hk; cases hk

/-- Under no GRANTED claim no slot is STARTING. -/
theorem StartsGranted.none_starting {s : State} (h : StartsGranted s) (ho : ∀ c due, s.cu.own ≠ .granted c due)
    (k : SlotNo) : isStarting (s.slot k).st = false := by
  cases hk : isStarting (s.slot k).st with
  | false => rfl
  | true =>
    obtain ⟨c, due, hc, -⟩ := h k hk
    exact absurd hc (ho c due)

/-- A claim withdrawn or released is of a slot that does not start, so no slot does (R103). -/
theorem startsGranted_followSlot {s : State} (h : StartsGranted s) : StartsGranted (followSlot s) := by
  have same (k : SlotNo) : (followSlot s).slot k = s.slot k := slot_of_fs (followSlot_fs s) k
  have ended (hn : ∀ k, isStarting (s.slot k).st = false) : StartsGranted (followSlot s) :=
    .of_none fun k => by rw [same]; exact hn k
  cases ho : s.cu.own with
  | none =>
    unfold followSlot
    rw [ho]
    exact h
  | settling c due => exact ended (h.none_starting (by simp [ho]))
  | granted c due =>
    by_cases hc : isStarting (s.slot c.slot).st = true
    · unfold followSlot
      simp only [ho, hc, if_true]
      exact h
    · refine ended fun k => Bool.eq_false_iff.2 fun hk => ?_
      obtain ⟨c', due', ho', rfl⟩ := h k hk
      rw [ho] at ho'
      cases ho'
      exact hc hk

theorem startsGranted_planned (b : State) {s : State} (h : StartsGranted s) : StartsGranted (planned b s) :=
  startsGranted_followSlot (h.closes (closes_recomputeIfDue b s) (.of_own (by simp)))

theorem startsGranted_enterIfReady {s : State} (h : StartsGranted s) : StartsGranted (enterIfReady s) := by
  unfold enterIfReady
  split
  · rename_i hr
    exact startsGranted_planned s (h.closes (closes_enterMaintenance s hr) (.of_own rfl))
  · exact h

theorem fansRest_requestEarly (b s : State) : FansRest s (requestEarly b s) := by
  unfold requestEarly
  split
  · split
    · exact .refl s
    · split
      · unfold placeEarly
        dsimp only
        split
        · exact fansRest_placeStatus s
        · exact (fansRest_placeStatus s).trans (.of_same rfl rfl rfl rfl)
      · exact .of_same rfl rfl rfl rfl
  · exact .refl s

theorem followList_cu (s : State) : (followList s).cu = s.cu := by
  unfold followList
  split <;> rfl

theorem startsGranted_follow (b : State) {x : State} (h : StartsGranted x) : StartsGranted (follow b x) := by
  have listed : StartsGranted (followList x) := h.closes (closes_followList x) (.of_own (by rw [followList_cu]))
  have governed : StartsGranted (governingChanged b (followList x)) :=
    listed.closes (closes_governingChanged b _) (.of_own (by simp))
  have entered := startsGranted_enterIfReady (startsGranted_planned b governed)
  exact (entered.closes (lineRest_testClaim _).closes (fansRest_testClaim _).grant).closes
    (closes_followFlash b _) (.of_own rfl)

theorem startsGranted_closeEvent (b : State) {x : State} (h : StartsGranted x) :
    StartsGranted (closeEvent b x) :=
  (startsGranted_follow b h).closes (closes_requestEarly b _) (fansRest_requestEarly b _).grant

/-- The settle timer's expiry starts the claim's slot alone, under its grant (R67, R100). -/
theorem startsGranted_settle {c : Claim} {due : Option Time} {s : State} (h : StartsGranted s)
    (ho : s.cu.own = .settling c due) : StartsGranted (settle c s) := by
  have rest := h.none_starting (by simp [ho])
  rcases settle_cases c s with ⟨d, hd, -, e⟩ | ⟨-, e⟩
  · rw [e]
    intro k hk
    by_cases hc : k = c.slot
    · exact ⟨c, _, rfl, hc.symm⟩
    · rw [setSlot_slot_ne _ _ hc] at hk
      exact absurd hk (Bool.eq_false_iff.1 (rest k))
  · rw [e]
    exact .of_none fun k => by rw [slot_of_fs (lineRest_withdrawClaim c s).fs k]; exact rest k

theorem outOfLocal_started (x : SlotCtx) (sl : Slot) (h : isStarting (outOfLocal x sl).st = true) :
    (outOfLocal x sl).st = sl.st := by
  unfold outOfLocal at h ⊢
  split at h
  · split at h
    · cases h
    · split at h <;> cases h
  · split at h <;> cases h
  all_goals rfl

theorem slotHeld_starting (keep : Bool) (sl : Slot) : isStarting (slotHeld keep sl).st = false := by
  unfold slotHeld
  split
  · split <;> rfl
  all_goals rfl

theorem slotReleased_starting (now : Time) (fitted : Bool) (sl : Slot) :
    isStarting (slotReleased now fitted sl).st = false := by
  unfold slotReleased
  split
  · split <;> rfl
  · rfl

theorem OwnMoves.startsGranted {i : Instr} {s x : State} (moves : OwnMoves i s x) (h : StartsGranted s) :
    StartsGranted x := by
  cases moves with
  | steps _ _ _ g => exact h.step (fun k => (g.slots k).started) g.grant
  | phase => exact h
  | settle c t _ own => exact startsGranted_settle (s := reachTime t s) h own
  | exit v t =>
    refine h.step (fun k hk => ?_) (.of_own rfl)
    rw [exitMaintenance_slot] at hk ⊢
    exact outOfLocal_started _ _ hk

theorem startsGranted_answers {i : Instr} {s u : State} (h : StartsGranted s) (a : Answers i s u) :
    StartsGranted u := by
  cases a with
  | powerOn => exact .of_none fun k => by rw [holdReset_slot]; exact slotHeld_starting _ _
  | external => exact .of_none fun k => by rw [holdReset_slot]; exact slotHeld_starting _ _
  | release w =>
    refine .of_none fun k => ?_
    obtain ⟨fitted, e⟩ := releaseReset_slot w s k
    rw [e]
    exact slotReleased_starting _ _ _
  | level => exact h
  | pin j n v p => exact h.step (fun k _ => setSlot_setInput_st j k n p s) (.of_own rfl)
  | idle => exact h
  | join t =>
    obtain ⟨slots, -, cu, -, -⟩ := leaveJoining_fans (reachTime t s)
    have left : StartsGranted (leaveJoining (reachTime t s)) :=
      h.step (fun k _ => by rw [slot_congr slots]; rfl) (.of_own (by rw [cu]; rfl))
    have early : FansRest (follow s (leaveJoining (reachTime t s))) (joined t s) := by
      unfold joined placeEarly
      dsimp only
      split
      · exact fansRest_placeStatus _
      · exact (fansRest_placeStatus _).trans (.of_same rfl rfl rfl rfl)
    have first : StartsGranted (joined t s) :=
      (startsGranted_follow s left).closes (closes_placeEarly _) early.grant
    obtain ⟨-, -, -, -, fs, -⟩ := maintAtJoin_rest (joined t s)
    refine startsGranted_closeEvent _ (first.step (fun k _ => by rw [slot_congr fs]) (.of_own ?_))
    unfold maintAtJoin
    split <;> rfl
  | event _ _ x plain join own => exact startsGranted_closeEvent s ((effect_moves own).startsGranted h)

/-- Settles O52: an own effect and every stage of what follows it keep a start under its grant; one grant has one
slot. -/
theorem stepKeepsStartsGranted : Obligations.StepKeepsStartsGranted := by
  intro s u hs _ h
  have granted : StartsGranted u := step_keeps (P := StartsGranted) (fun _ _ h => h) (fun _ h => h)
    (fun _ _ _ h a => startsGranted_answers h a) hs h
  refine ⟨granted, fun j k hj hk => ?_⟩
  obtain ⟨c, due, ho, rfl⟩ := granted j hj
  obtain ⟨c', due', ho', rfl⟩ := granted k hk
  rw [ho] at ho'
  cases ho'
  rfl

end Sys2Proof.Machine
end

section
/-! PROOFS. CONFIG_FAULT holds until a reset (O53): there no own effect and nothing that follows one touches what R171
says it holds, the entry gives it, and no timer's command is a reset. -/

namespace Sys2Proof.Machine

/-! ## What CONFIG_FAULT holds, but for the slots -/

/-- The own claim settles. -/
def settles (s : State) : Bool :=
  match s.cu.own with
  | .settling _ _ => true
  | .granted _ _ | .none => false

theorem settles_of_not {s : State} (h : ∀ c due, s.cu.own ≠ .settling c due) : settles s = false := by
  unfold settles
  split
  · rename_i c due e; exact absurd e (h c due)
  · rfl
  · rfl

/-- What R171 names of the station outside the slots. -/
def faultSeen (s : State) : List Rec × List ClaimEntry × List Peer × List TxFrame × Quad Target × Pace × Ba ×
    Mode × Option Time × Bool × Option Time × Option Time × ConflictLamp × Bool :=
  (s.iu.records, s.cu.view, s.pt, s.li.tx, s.tp.targets, s.tp.pace, s.ba, s.sj.mode, s.sj.joinDue,
    s.fs.maintPending, s.no.acceptDue, s.no.refusedDue, s.no.conflict, settles s)

/-- What R171 says stands where neither it nor a slot is touched. -/
theorem FaultHolds.of_seen {s x : State} (f : FaultHolds s) (e : faultSeen x = faultSeen s)
    (slots : ∀ k, SlotStep (s.slot k) (x.slot k)) : FaultHolds x := by
  simp only [faultSeen, Prod.mk.injEq] at e
  obtain ⟨records, view, peers, tx, targets, pace, ba, -, join, entry, accept, refused, conflict, own⟩ := e
  obtain ⟨accept', refused', conflict'⟩ := f.lamps
  refine ⟨records.trans f.records, view.trans f.view, peers.trans f.peers, tx.trans f.tx,
    targets.trans f.targets, pace.trans f.pace, fun k hk => ?_, fun k => ?_, fun c due ho => ?_,
    ba.trans f.noStatus, join.trans f.noJoin, entry.trans f.noEntry,
    accept.trans accept', refused.trans refused', conflict.trans conflict'⟩
  · exact (slots k).target (f.slotTargets k ((slots k).fitted hk))
  · by_cases hk : (x.slot k).st = .absent
    · rw [hk]; rfl
    · exact (slots k).noWait (f.slotTargets k ((slots k).fitted hk)) (f.noWait k)
  · rw [settles_of_not f.noSettle] at own
    unfold settles at own
    rw [ho] at own
    cases own

theorem mode_of_seen {s x : State} (e : faultSeen x = faultSeen s) : x.sj.mode = s.sj.mode := by
  simp only [faultSeen, Prod.mk.injEq] at e
  obtain ⟨-, -, -, -, -, -, -, mode, -⟩ := e
  exact mode

/-! ## No own effect touches it -/

theorem alarmEvent_fault {s : State} (m : s.sj.mode = .configFault) : faultSeen (alarmEvent s) = faultSeen s := by
  rw [alarmEvent_idle (.inr m)]
  rfl

theorem faultSeen_noteInvalid (v : Option Int) (r : Reading) (s : State) :
    faultSeen (noteInvalid v r s) = faultSeen s ∧ (noteInvalid v r s).sj = s.sj := by
  unfold noteInvalid
  split <;> exact ⟨rfl, rfl⟩

theorem faultSeen_takeSample (n : Sensor) (v : Option Int) {s : State} (m : s.sj.mode = .configFault) :
    faultSeen (takeSample n v s) = faultSeen s := by
  cases n
  · obtain ⟨seen, sj⟩ := faultSeen_noteInvalid v (s.su.heat.take v)
      (setSu { s.su with heat := s.su.heat.take v, history := historyTake v s.su.history } s)
    refine Eq.trans ?_ seen
    dsimp only [takeSample]
    unfold heatAlarmStep
    split
    · split
      · exact alarmEvent_fault (by rw [setSu_sj, sj]; exact m)
      · rfl
    · rfl
  · exact (faultSeen_noteInvalid _ _ _).1
  · exact (faultSeen_noteInvalid _ _ _).1

theorem commandEdge_fault {act : State → State} {s : State} (m : s.sj.mode = .configFault) :
    commandEdge act s = s := by
  unfold commandEdge
  rw [m]

theorem testConflictLamp_fault {s : State} (f : FaultHolds s) : faultSeen (testConflictLamp s) = faultSeen s := by
  obtain ⟨-, -, dark⟩ := f.lamps
  unfold testConflictLamp
  split
  · unfold faultSeen
    rw [dark]
    rfl
  · rfl

theorem inputActs_fault {n : Input} {s : State} (f : FaultHolds s) (m : s.sj.mode = .configFault) :
    faultSeen (inputActs n s) = faultSeen s := by
  unfold inputActs
  split
  · exact alarmEvent_fault m
  · rw [commandEdge_fault m]
  · rw [commandEdge_fault m]
  · rw [commandEdge_fault m]
  · unfold maintReported
    rw [m]
    split <;> simp_all
  · exact testConflictLamp_fault f
  · exact testConflictLamp_fault f
  · rfl
  · rfl

theorem dispatch_fault {g : Octets} {s : State} (m : s.sj.mode = .configFault) : dispatch g s = s := by
  unfold dispatch
  rw [if_pos m]

theorem testClaim_fault {s : State} (m : s.sj.mode = .configFault) : testClaim s = s := by
  unfold testClaim
  cases h : claimTest s with
  | none => rfl
  | some x =>
    obtain ⟨-, -, -, mode, -⟩ := claimTest_some h
    rw [m] at mode
    cases mode

theorem resolvedContent_empty (id : Id) : resolvedContent [] id = none := rfl

theorem endDefer_fault (id : Id) {s : State} (f : FaultHolds s) : faultSeen (endDefer id s) = faultSeen s := by
  unfold endDefer
  rw [f.records, resolvedContent_empty]
  rfl

theorem claimSent_fault (b : Body) {s : State} (f : FaultHolds s) : claimSent b s = s := by
  unfold claimSent
  split
  · rename_i ho
    exact absurd ho (f.noSettle _ _)
  · rfl

theorem paceUpdate_fault {s : State} (f : FaultHolds s) : faultSeen (paceUpdate s) = faultSeen s := by
  have : governing s = none := by unfold governing; rw [f.records]; rfl
  unfold paceUpdate
  rw [this]
  rfl

theorem faultSeen_place (b : Body) {s : State} (m : s.sj.mode = .configFault) :
    faultSeen (place b s) = faultSeen s := by rw [place_configFault _ _ m]

theorem renewClaim_fault {c : Claim} {due : Option Time} {s : State} (m : s.sj.mode = .configFault)
    (ho : s.cu.own = .granted c due) : faultSeen (renewClaim c s) = faultSeen s := by
  have placed : renewClaim c s = setOwn (.granted c none) s := place_configFault _ _ m
  rw [placed]
  unfold faultSeen settles
  rw [ho]
  rfl

theorem repeatEnd_fault (id : Id) {s : State} (m : s.sj.mode = .configFault) :
    faultSeen (repeatEnd id s) = faultSeen s := by
  unfold repeatEnd placeEnd
  refine (faultSeen_place _ ?_).trans rfl
  exact m

theorem collided_fault (g : TxFrame) {s : State} (m : s.sj.mode = .configFault) :
    faultSeen (collided g s) = faultSeen s := by
  unfold collided
  split
  · rfl
  · rfl

theorem startSend_fault {s : State} (f : FaultHolds s) : startSend s = s := by
  unfold startSend
  rw [f.tx]

theorem takeCharacter_seen (o : Octet) (b : Bool) (s : State) : faultSeen (takeCharacter o b s) = faultSeen s := by
  unfold takeCharacter
  dsimp only
  split
  · rfl
  · rfl
  · unfold arriveFrame
    dsimp only
    split <;> rfl
  · rfl

theorem seen_timed {due : Option Time} {body : State → State} {s x : State} (h : timed due body s = some x)
    (hb : ∀ t, faultSeen (body (reachTime t s)) = faultSeen s) : faultSeen x = faultSeen s := by
  obtain ⟨t, -, rfl⟩ := Option.map_eq_some_iff.1 h
  exact hb t

theorem seen_taken {k : FrameKind} {s x : State} (m : s.sj.mode = .configFault) (h : taken k s = some x) :
    faultSeen x = faultSeen s := by
  unfold taken at h
  split at h
  · cases h
  · split at h
    · rename_i g fs _ _
      cases h
      exact (congrArg faultSeen (dispatch_fault (g := g) (s := setRx fs s) m)).trans rfl
    · cases h

theorem FaultHolds.reach {s : State} (f : FaultHolds s) (t : Time) : FaultHolds (reachTime t s) :=
  f.of_seen rfl fun _ => .refl _

theorem seen_character {ready : Bool} {o : Octet} {stop : Bool} {s x : State} (f : FaultHolds s)
    (h : characterEffect ready o stop s = some x) : faultSeen x = faultSeen s := by
  unfold characterEffect at h
  split at h
  · exact seen_timed h fun t => by rw [startSend_fault (f.reach t)]; rfl
  · unfold whenReady at h
    split at h
    · cases h
      exact takeCharacter_seen o stop s
    · cases h

/-- In CONFIG_FAULT no own effect touches what R171 names outside the slots. -/
theorem faultSeen_effect {i : Instr} {s x : State} (f : FaultHolds s) (m : s.sj.mode = .configFault)
    (h : effect i s = some x) : faultSeen x = faultSeen s := by
  have stopped {due : Option Time} {body : State → State} (e : due = none) (h : timed due body s = some x) :
      faultSeen x = faultSeen s := by
    rw [e] at h
    cases h
  cases i
  all_goals simp only [effect] at h
  case sensorRound => exact seen_timed h fun _ => rfl
  case sensorSample a b c =>
    unfold sampleEffect at h
    split at h
    · cases h
    · exact seen_timed h fun t => faultSeen_takeSample _ _ m
  case debounceExpiry n =>
    exact seen_timed h fun t => inputActs_fault ((f.reach t).of_seen rfl fun _ => .refl _) m
  case maintenanceEntry =>
    rw [maintReady_of_not_pending f.noEntry] at h
    cases h
  case slotInputFilterExpiry => exact seen_timed h fun _ => rfl
  case slotInputInitialLevels => exact seen_timed h fun _ => rfl
  case startTimerExpiry => exact seen_timed h fun _ => rfl
  case coastTimerExpiry => exact seen_timed h fun _ => rfl
  case tripHoldExpiry => exact seen_timed h fun _ => rfl
  case paceUpdate => exact seen_timed h fun t => paceUpdate_fault (f.reach t)
  case changeTimerExpiry => exact seen_timed h fun _ => rfl
  case yieldHoldExpiry id => exact stopped (by rw [f.records]; rfl) h
  case incidentReceived => exact seen_taken m h
  case endReceived => exact seen_taken m h
  case statusReceived => exact seen_taken m h
  case claimReceived => exact seen_taken m h
  case withdrawReceived => exact seen_taken m h
  case releaseReceived => exact seen_taken m h
  case invalidFrameTaken => exact seen_taken m h
  case reannounce id => exact seen_timed h fun t => endDefer_fault id (f.reach t)
  case endRepeat id =>
    exact seen_timed h fun t => repeatEnd_fault id (s := reachTime t s) m
  case endingTimerExpiry id => exact stopped (by rw [f.records]; rfl) h
  case peerSilent p => exact stopped (by rw [f.peers]; rfl) h
  case claimPlacement =>
    unfold whenReady at h
    split at h
    · cases h
      rw [testClaim_fault m]
    · cases h
  case claimSpacingExpiry => exact seen_timed h fun _ => rfl
  case settleExpiry =>
    unfold settleEffect at h
    split at h
    · rename_i ho
      exact absurd ho (f.noSettle _ _)
    · cases h
    · cases h
  case claimRenewal =>
    unfold renewEffect at h
    split at h
    · rename_i c due ho
      exact seen_timed h fun t => renewClaim_fault (s := reachTime t s) m ho
    · cases h
    · cases h
  case claimEntryExpiry p => exact stopped (by rw [f.view]; rfl) h
  case presenceTimerExpiry => exact stopped (by rw [f.noStatus]) h
  case statusSpacingExpiry => exact stopped (by rw [f.noStatus]) h
  case healthFlagExpiry n => exact seen_timed h fun _ => rfl
  case sendStart => exact seen_timed h fun t => by rw [startSend_fault (f.reach t)]; rfl
  case sendSuccess =>
    unfold successEffect at h
    split at h
    · cases h
    · refine seen_timed h fun t => ?_
      have ended : FaultHolds (endAttempt (reachTime t s)) := f.of_seen rfl fun _ => .refl _
      rw [claimSent_fault _ ended]
      rfl
  case collision k b =>
    unfold collisionEffect at h
    split at h
    · cases h
    · split at h
      · cases h
      · split at h
        · cases h
        · exact seen_timed h fun t => collided_fault _ m
  case receiverSync => exact seen_timed h fun _ => rfl
  case frameArrival o => exact seen_character f h
  case rxFrameDiscard o b => exact seen_character f h
  case rxTruncation => exact seen_timed h fun _ => rfl
  case cmdLampExpiry l =>
    obtain ⟨accept, refused, conflict⟩ := f.lamps
    exact stopped (by cases l <;> simp [lampDue, accept, refused, conflict]) h
  case slotFltPhase k => exact seen_timed h fun _ => rfl
  case characterReceived o b => exact seen_character f h
  all_goals cases h

/-! ## The entry, and what follows an event -/

/-- No own effect enters CONFIG_FAULT but one that gives what R171 says. -/
theorem OwnMoves.fault {i : Instr} {s x : State} (moves : OwnMoves i s x) (m : x.sj.mode = .configFault) :
    s.sj.mode = .configFault ∨ FaultHolds x := by
  cases moves with
  | steps _ _ _ g => exact g.fault m
  | phase => exact .inl m
  | settle c t =>
    refine .inl ?_
    rcases settle_cases c (reachTime t s) with ⟨d, -, -, e⟩ | ⟨-, e⟩
    · rw [e] at m; exact m
    · rw [e, (lineRest_withdrawClaim c _).sj] at m; exact m
  | exit v t => exact absurd m (listMode_ne_fault _)

theorem faultQuiet_effect {i : Instr} {s x : State} (f : FaultQuiet s) (h : effect i s = some x) :
    FaultQuiet x := by
  intro m
  have moves := effect_moves h
  rcases moves.fault m with ms | holds
  · have holds := f ms
    refine holds.of_seen (faultSeen_effect holds ms h) fun k => ?_
    cases moves with
    | steps _ _ _ g => exact g.slots k
    | phase => exact .refl _
    | settle c t _ own => exact absurd own (holds.noSettle _ _)
    | exit _ _ _ _ mode => rw [ms] at mode; cases mode
  · exact holds

theorem governingChanged_fault {b x : State} (f : FaultHolds x) : FaultHolds (governingChanged b x) := by
  have none : governing x = none := by unfold governing; rw [f.records]; rfl
  unfold governingChanged
  rw [none]
  split
  · rename_i h; cases h
  · rename_i h; cases h
  · refine f.of_seen ?_ fun _ => .refl _
    unfold faultSeen
    rw [f.pace]
    rfl
  · exact f

theorem followSlot_fault {x : State} (f : FaultHolds x) (m : x.sj.mode = .configFault) :
    FaultHolds (followSlot x) := by
  unfold followSlot
  split
  · rename_i ho; exact absurd ho (f.noSettle _ _)
  · rename_i c due ho
    split
    · exact f
    · unfold releaseClaim
      rw [place_configFault _ (setOwn .none x) m]
      refine f.of_seen ?_ fun _ => .refl _
      unfold faultSeen settles
      rw [ho]
      rfl
  · exact f

/-- What follows an event in CONFIG_FAULT leaves what R171 says. -/
theorem faultHolds_closeEvent {x : State} (b : State) (f : FaultHolds x) (m : x.sj.mode = .configFault) :
    FaultHolds (closeEvent b x) := by
  have listed : followList x = x := by
    unfold followList
    rw [m]
  have gm : (governingChanged b x).sj.mode = .configFault := by simpa using m
  have plan : planned b (governingChanged b x) = followSlot (governingChanged b x) := by
    unfold planned recomputeIfDue
    rw [if_pos gm]
  have held := followSlot_fault (governingChanged_fault (b := b) f) gm
  have fm : (followSlot (governingChanged b x)).sj.mode = .configFault := by simpa using m
  have followed : follow b x = followFlash b (followSlot (governingChanged b x)) := by
    unfold follow enterIfReady
    rw [listed, plan, maintReady_of_not_pending held.noEntry]
    simp only [Bool.false_eq_true, if_false]
    rw [testClaim_fault fm]
  have closed : closeEvent b x = followFlash b (followSlot (governingChanged b x)) := by
    unfold closeEvent requestEarly
    rw [followed]
    have : (followFlash b (followSlot (governingChanged b x))).sj.mode = .configFault := fm
    rw [this]
    rfl
  rw [closed]
  exact held.of_seen rfl fun _ => .refl _

/-- What follows an event does not enter CONFIG_FAULT. -/
theorem closeEvent_fault {b x : State} (m : (closeEvent b x).sj.mode = .configFault) :
    x.sj.mode = .configFault := by
  have m : (enterIfReady (planned b (governingChanged b (followList x)))).sj.mode = .configFault := by
    have e : (closeEvent b x).sj = (enterIfReady (planned b (governingChanged b (followList x)))).sj := by
      unfold closeEvent
      rw [requestEarly_sj]
      exact testClaim_sj _
    rw [← e]
    exact m
  unfold enterIfReady at m
  split at m
  · rw [planned_sj] at m
    cases m
  · rw [planned_sj, governingChanged_sj] at m
    exact (followList_fault x).1 m

theorem faultQuiet_closeEvent {x : State} (b : State) (f : FaultQuiet x) : FaultQuiet (closeEvent b x) :=
  fun m => faultHolds_closeEvent b (f (closeEvent_fault m)) (closeEvent_fault m)

theorem slotReleased_waits (now : Time) (fitted : Bool) (sl : Slot) :
    isStartWait (slotReleased now fitted sl).st = false := by
  unfold slotReleased
  split
  · split <;> rfl
  · rfl

/-- At reset release nothing waits, and every slot starts without a target (R165). -/
theorem faultHolds_releaseReset {w : BitVec 28} (invalid : strapsValid w = false) (s : State) :
    FaultHolds (releaseReset w (holdReset true s)) where
  records := rfl
  view := rfl
  peers := rfl
  tx := rfl
  targets := rfl
  pace := rfl
  slotTargets := fun k _ => by
    obtain ⟨fitted, e⟩ := releaseReset_slot w (holdReset true s) k
    rw [e]
    rfl
  noWait := fun k => by
    obtain ⟨fitted, e⟩ := releaseReset_slot w (holdReset true s) k
    rw [e]
    exact slotReleased_waits _ _ _
  noSettle := fun _ _ h => by cases h
  noStatus := rfl
  noJoin := by
    change (if strapsValid w = true then _ else none) = none
    rw [invalid]
    rfl
  noEntry := rfl
  lamps := ⟨rfl, rfl, rfl⟩

theorem releaseReset_mode (w : BitVec 28) (s : State) :
    (releaseReset w s).sj.mode = if strapsValid w then .joining else .configFault := rfl

theorem faultQuiet_releaseReset {w : BitVec 28} {s : State} (hr : HeldInReset s) (held : s.sj.held = true) :
    FaultQuiet (releaseReset w s) := by
  intro m
  rw [releaseReset_mode] at m
  have invalid : strapsValid w = false := by
    cases v : strapsValid w with
    | false => rfl
    | true => rw [v] at m; cases m
  rw [← hr held]
  exact faultHolds_releaseReset invalid s

theorem joined_not_fault (t : Time) (s : State) :
    (closeEvent (joined t s) (maintAtJoin (joined t s))).sj.mode ≠ .configFault := by
  intro m
  obtain ⟨-, -, -, -, mode⟩ := leaveJoining_fans (reachTime t s)
  have m : (maintAtJoin (joined t s)).sj.mode = .configFault := closeEvent_fault m
  have e : (maintAtJoin (joined t s)).sj = (joined t s).sj := by unfold maintAtJoin; split <;> rfl
  rw [e] at m
  have early : (joined t s).sj.mode = (closeEvent s (leaveJoining (reachTime t s))).sj.mode := by
    unfold closeEvent
    rw [requestEarly_sj]
    unfold joined placeEarly
    dsimp only
    split
    · rw [(fansRest_placeStatus _).mode]
    · exact (fansRest_placeStatus _).mode
  exact mode (closeEvent_fault (early.symm.trans m))

theorem faultQuiet_answers {i : Instr} {s u : State} (f : FaultQuiet s) (hr : HeldInReset s)
    (a : Answers i s u) : FaultQuiet u := by
  cases a with
  | powerOn => intro m; cases m
  | external => intro m; cases m
  | release w _ held => exact faultQuiet_releaseReset hr held
  | level => exact fun m => (f m).of_seen rfl fun _ => .refl _
  | pin j n v p =>
    refine fun m => (f m).of_seen rfl fun k => ?_
    by_cases hk : k = j
    · subst hk
      rw [setSlot_slot_same]
      exact slotStep_setInput _ _ _
    · rw [setSlot_slot_ne _ _ hk]
      exact .refl _
  | idle => exact f
  | join t => exact fun m => absurd m (joined_not_fault t s)
  | event _ _ x plain join own => exact faultQuiet_closeEvent s (faultQuiet_effect f own)

/-- Only the two resets take the station out of CONFIG_FAULT (R88). -/
theorem fault_answers {i : Instr} {s u : State} (f : FaultQuiet s) (hr : HeldInReset s) (a : Answers i s u)
    (m : s.sj.mode = .configFault) (hu : u.sj.mode ≠ .configFault) :
    i = .powerOnReset ∨ i = .externalReset := by
  cases a with
  | powerOn => exact .inl rfl
  | external => exact .inr rfl
  | release w _ held => rw [← hr held] at m; cases m
  | level => exact absurd m hu
  | pin j n v p => exact absurd m hu
  | idle => exact absurd m hu
  | join t _ due => rw [(f m).noJoin] at due; cases due
  | event _ _ x plain join own =>
    have mx : x.sj.mode = .configFault := (mode_of_seen (faultSeen_effect (f m) m own)).trans m
    exact absurd (((closes_closeEvent s x).modeStays (.inr (.inr mx))).trans mx) hu

/-! ## No reset is due -/

/-- Every command of the list is an event of the part's own. -/
def NoResets (l : List Due) : Prop := ∀ d ∈ l, isReset d.cmd = false

theorem NoResets.append {l m : List Due} (h : NoResets l) (g : NoResets m) : NoResets (l ++ m) :=
  fun d hd => (List.mem_append.1 hd).elim (h d) (g d)

theorem noResets_dueAt (t : Option Time) {c : Instr} (h : isReset c = false) : NoResets (dueAt t c) := by
  cases t with
  | none => exact fun d hd => by cases hd
  | some t => exact fun d hd => by rw [List.mem_singleton.1 hd]; exact h

theorem noResets_flatMap {α : Type} {l : List α} {f : α → List Due} (h : ∀ a, NoResets (f a)) :
    NoResets (l.flatMap f) := fun d hd => by
  obtain ⟨a, -, ha⟩ := List.mem_flatMap.1 hd
  exact h a d ha

theorem noResets_map {α : Type} {l : List α} {f : α → Due} (h : ∀ a, isReset (f a).cmd = false) :
    NoResets (l.map f) := fun d hd => by
  obtain ⟨a, -, rfl⟩ := List.mem_map.1 hd
  exact h a

theorem noResets_single (t : Time) {c : Instr} (h : isReset c = false) : NoResets [⟨t, c⟩] :=
  fun d hd => by rw [List.mem_singleton.1 hd]; exact h

theorem noResets_nil : NoResets [] := fun _ h => by cases h

theorem noResets_frameDues (s : State) : NoResets (frameDues s) := by
  unfold frameDues
  split
  · exact noResets_nil
  · exact noResets_single _ (by cases classify s.count _ <;> rfl)

theorem noResets_slotDues (s : State) (k : SlotNo) : NoResets (slotDues s k) :=
  (((((noResets_dueAt _ rfl).append (noResets_dueAt _ rfl)).append (noResets_dueAt _ rfl)).append
    (noResets_dueAt _ rfl)).append (noResets_dueAt _ rfl)).append (noResets_dueAt _ rfl)

theorem noResets_planDues (s : State) : NoResets (planDues s) :=
  (((((noResets_dueAt _ rfl).append (noResets_dueAt _ rfl)).append
    (noResets_flatMap fun _ => noResets_dueAt _ rfl)).append
    (noResets_flatMap fun _ => noResets_dueAt _ rfl)).append (noResets_map fun _ => rfl)).append
    (noResets_map fun _ => rfl)

theorem noResets_ownClaimDues (s : State) : NoResets (ownClaimDues s) := by
  unfold ownClaimDues
  split
  · exact noResets_dueAt _ rfl
  · exact noResets_dueAt _ rfl
  · exact noResets_nil

theorem noResets_boreDues (s : State) : NoResets (boreDues s) :=
  ((((((noResets_ownClaimDues s).append (noResets_dueAt _ rfl)).append (noResets_map fun _ => rfl)).append
    (noResets_flatMap fun _ => noResets_dueAt _ rfl)).append (noResets_dueAt _ rfl)).append
    (noResets_dueAt _ rfl)).append (noResets_flatMap fun _ => noResets_dueAt _ rfl)

theorem noResets_lineDues (s : State) : NoResets (lineDues s) := by
  refine (((noResets_dueAt _ rfl).append (noResets_dueAt _ rfl)).append (noResets_dueAt _ rfl)).append ?_
  unfold sentDues
  split
  · exact noResets_nil
  · exact noResets_single _ rfl

theorem noResets_nicheDues (s : State) : NoResets (nicheDues s) := by
  have sample : NoResets (sampleDues s) := by
    unfold sampleDues
    split
    · exact noResets_nil
    · exact noResets_single _ rfl
  exact (((((((((((noResets_dueAt _ rfl).append sample).append (noResets_dueAt _ rfl)).append
    (noResets_dueAt _ rfl)).append (noResets_dueAt _ rfl)).append (noResets_dueAt _ rfl)).append
    (noResets_dueAt _ rfl)).append (noResets_dueAt _ rfl)).append (noResets_dueAt _ rfl)).append
    (noResets_dueAt _ rfl)).append (noResets_dueAt _ rfl)).append
    (noResets_flatMap fun _ => noResets_dueAt _ rfl)

theorem noResets_allDues (s : State) : NoResets (allDues s) :=
  (noResets_frameDues s).append ((noResets_dueAt _ rfl).append
    ((noResets_flatMap (noResets_slotDues s)).append ((noResets_planDues s).append
      ((noResets_boreDues s).append ((noResets_lineDues s).append (noResets_nicheDues s))))))

theorem earliest_mem {l : List Due} {d : Due} (h : earliest l = some d) : d ∈ l := by
  induction l generalizing d with
  | nil => cases h
  | cons a l ih =>
    unfold earliest at h
    split at h
    · cases h
      exact List.mem_cons_self
    · rename_i e he
      split at h
      · cases h
        exact List.mem_cons_of_mem _ (ih he)
      · cases h
        exact List.mem_cons_self

/-- What time brings about on an empty queue is never a reset (log 1). -/
theorem dueCommand_not_reset {s : State} {c : Instr} (h : dueCommand s = some c) : isReset c = false := by
  unfold dueCommand at h
  split at h
  · cases h
  · rename_i d hd
    split at h
    · cases h
      exact noResets_allDues s d (earliest_mem hd)
    · cases h

theorem HeldInReset.of_pending {s : State} (h : HeldInReset s) (rest : List Instr) :
    HeldInReset { s with pending := rest } :=
  fun held => congrArg (fun t : State => { t with pending := rest }) (h held)

theorem FaultQuiet.of_pending {s : State} (f : FaultQuiet s) (rest : List Instr) :
    FaultQuiet { s with pending := rest } := fun m => (f m).of_seen rfl fun _ => .refl _

/-- Settles O53: in CONFIG_FAULT the own effects and what follows them leave what R171 says, its entry gives it, and
the only commands that leave it are the two resets, which time alone never brings about. -/
theorem configFaultHoldsUntilReset : Obligations.ConfigFaultHoldsUntilReset := by
  intro s u f hr h
  unfold step at h
  split at h
  · rename_i c rest queue
    have answers := exec_answers h
    have held := hr.of_pending rest
    have quiet := f.of_pending rest
    exact ⟨faultQuiet_answers quiet held answers, fun m hu =>
      ⟨c, rest, queue, fault_answers quiet held answers m hu⟩⟩
  · unfold idle at h
    split at h
    · rename_i c due
      have answers := exec_answers h
      refine ⟨faultQuiet_answers f hr answers, fun m hu => ?_⟩
      have := dueCommand_not_reset due
      rcases fault_answers f hr answers m hu with rfl | rfl <;> cases this
    · cases h
      exact ⟨fun m => (f m).of_seen rfl fun _ => .refl _, fun m hu => absurd m hu⟩

end Sys2Proof.Machine
end

section
/-! PROOFS. What follows an event at which the own claim is over: a CLAIM for another slot may join the queue, a STATUS
may be placed, and every other frame stands as the claim's end left it. -/

namespace Sys2Proof.Machine

/-! ## The frames but for a STATUS -/

/-- The frames of classes 0 and 1, which no STATUS touches. -/
def toldFrames (q : List TxFrame) : List TxFrame := q.filter fun f => bodyClass f.body != 2

theorem toldFrames_append (l r : List TxFrame) : toldFrames (l ++ r) = toldFrames l ++ toldFrames r :=
  List.filter_append ..

theorem toldFrames_status {f : TxFrame} (h : bodyClass f.body = 2) : toldFrames [f] = [] := by
  unfold toldFrames
  simp [h]

theorem toldFrames_insertTail_status {f : TxFrame} (h : bodyClass f.body = 2) (q : List TxFrame) :
    toldFrames (insertTail f q) = toldFrames q := by
  induction q with
  | nil => exact toldFrames_status h
  | cons g gs ih =>
    unfold insertTail
    split
    · rw [show f :: g :: gs = [f] ++ (g :: gs) from rfl, toldFrames_append, toldFrames_status h]
      rfl
    · rw [show g :: insertTail f gs = [g] ++ insertTail f gs from rfl, toldFrames_append, ih, ← toldFrames_append]
      rfl

/-- Frames that stand in `toldFrames` wait. -/
theorem mem_of_told {f : TxFrame} {q q' : List TxFrame} (e : toldFrames q' = toldFrames q) (hc : bodyClass f.body ≠ 2)
    (h : f ∈ q) : f ∈ q' := by
  have mem : f ∈ toldFrames q := List.mem_filter.2 ⟨h, by simpa using hc⟩
  rw [← e] at mem
  exact (List.mem_filter.1 mem).1

theorem toldFrames_joinTail_status {b : Body} (h : bodyClass b = 2) (s : State) :
    toldFrames (joinTail b s).li.tx = toldFrames s.li.tx := by
  unfold joinTail
  split
  · rw [refuseFrame_li]
  · exact toldFrames_insertTail_status h _

/-- A STATUS takes the place of a STATUS or joins the tail (R153). -/
theorem toldFrames_replaceIn_status {b : Body} {n : BitVec 32} {p : StatusPart} {o : Octet} (h : b = .status n p o)
    {q q' : List TxFrame} (e : replaceIn b q = some q') : toldFrames q' = toldFrames q := by
  subst h
  obtain ⟨l, y, r, rfl, hy, rfl⟩ := replaceIn_split e
  have old : bodyClass y.body = 2 := by simpa [takesPlaceOf] using hy
  rw [toldFrames_append, toldFrames_append]
  congr 1
  rw [show ∀ (a : TxFrame), a :: r = [a] ++ r from fun _ => rfl, toldFrames_append, toldFrames_status rfl]
  rw [show y :: r = [y] ++ r from rfl, toldFrames_append, toldFrames_status old]

theorem toldFrames_placeStatus (s : State) : toldFrames (placeStatus s).li.tx = toldFrames s.li.tx := by
  unfold placeStatus
  have placed (b : Body) (t : State) (hb : ∃ n p o, b = .status n p o) :
      toldFrames (place b t).li.tx = toldFrames t.li.tx := by
    obtain ⟨n, p, o, rfl⟩ := hb
    unfold place
    split
    · rfl
    · dsimp only
      split
      · rename_i q hq
        exact toldFrames_replaceIn_status rfl hq
      · exact toldFrames_joinTail_status rfl t
  exact placed _ _ ⟨_, _, _, rfl⟩

theorem placeStatus_own (s : State) : (placeStatus s).cu = s.cu := by
  unfold placeStatus
  exact place_cu_eq _ _ rfl

theorem requestEarly_rest (b s : State) : toldFrames (requestEarly b s).li.tx = toldFrames s.li.tx ∧
    (requestEarly b s).cu = s.cu := by
  unfold requestEarly
  split
  · split
    · exact ⟨rfl, rfl⟩
    · split
      · unfold placeEarly
        dsimp only
        split
        · exact ⟨toldFrames_placeStatus s, placeStatus_own s⟩
        · exact ⟨toldFrames_placeStatus s, placeStatus_own s⟩
      · exact ⟨rfl, rfl⟩
  · exact ⟨rfl, rfl⟩

/-! ## A claim that is over -/

/-- The state the claim test of an event finds. -/
def beforeClaim (b x : State) : State := enterIfReady (beforeEntry b x)

theorem closeEvent_eq (b x : State) :
    closeEvent b x = requestEarly b (followFlash b (testClaim (beforeClaim b x))) := rfl

theorem followSlot_none {s : State} (h : s.cu.own = .none) : followSlot s = s := by
  unfold followSlot
  rw [h]

/-- A claim that is over before a maintenance entry is over when the claim test is made. -/
theorem beforeClaim_of_none {b x : State} (h : (beforeEntry b x).cu.own = .none) :
    (beforeClaim b x).cu = (beforeEntry b x).cu ∧ (beforeClaim b x).li = (beforeEntry b x).li := by
  unfold beforeClaim enterIfReady
  split
  · have entered : (recomputeIfDue (beforeEntry b x) (enterMaintenance (beforeEntry b x))).cu =
        (beforeEntry b x).cu := recomputeIfDue_cu _ _
    unfold planned
    rw [followSlot_none (by rw [entered]; exact h), entered, recomputeIfDue_li]
    exact ⟨rfl, rfl⟩
  · exact ⟨rfl, rfl⟩

/-- The CLAIM for slot `k` that a claim test places (R99). -/
def nextClaim (s : State) (k : SlotNo) (a b : Nat) : Claim := ⟨k, s.cu.counter, ⟨a, b, s.sj.serial⟩⟩

/-- The state in which that CLAIM joins the queue. -/
def claiming (s : State) (c : Claim) : State :=
  { s with cu := { s.cu with
      counter := s.cu.counter + 1#8, own := .settling c none, spacingDue := some (s.now + claimSpacingTime) } }

theorem testClaim_placed {s : State} {k : SlotNo} {a b : Nat} (h : claimTest s = some (k, a, b)) :
    testClaim s = joinTail (.claim s.sect (nextClaim s k a b)) (claiming s (nextClaim s k a b)) := by
  obtain ⟨-, -, -, mode, -⟩ := claimTest_some h
  unfold testClaim
  rw [h]
  exact place_claim (s := claiming s (nextClaim s k a b))
    (by rw [show (claiming s (nextClaim s k a b)).sj.mode = .incident from mode]; simp)

/-- With no own claim the claim test places a CLAIM at the tail of its class, or leaves the own claim NONE and the
queue as it stands (R98, R99, R152). -/
theorem testClaim_cases {s : State} (h : s.cu.own = .none) :
    ((testClaim s).cu.own = .none ∧ (testClaim s).li.tx = s.li.tx) ∨
    ∃ k a b, claimTest s = some (k, a, b) ∧ (testClaim s).cu.own = .settling (nextClaim s k a b) none ∧
      (testClaim s).li.tx = insertTail ⟨.claim s.sect (nextClaim s k a b), 0⟩ s.li.tx := by
  cases hc : claimTest s with
  | none =>
    left
    unfold testClaim
    rw [hc]
    exact ⟨h, rfl⟩
  | some p =>
    obtain ⟨k, a, b⟩ := p
    rw [testClaim_placed hc]
    by_cases room : s.li.tx.length < 10
    · right
      rw [joinTail_room _ (claiming s _) room]
      exact ⟨k, a, b, rfl, rfl, rfl⟩
    · left
      have full : maxTx ≤ (claiming s (nextClaim s k a b)).li.tx.length := Nat.le_of_not_lt room
      have refused : joinTail (.claim s.sect (nextClaim s k a b)) (claiming s (nextClaim s k a b)) =
          refuseFrame (.claim s.sect (nextClaim s k a b)) (claiming s (nextClaim s k a b)) := if_pos full
      rw [refused, refuseFrame_own, refuseFrame_li]
      exact ⟨if_pos rfl, rfl⟩

/-- What follows a claim that is over: the own claim stays NONE, or settles anew for a slot that waits, its CLAIM
at the tail (R98, R99). -/
theorem closeEvent_after {b x : State} (h : (beforeClaim b x).cu.own = .none) :
    ((closeEvent b x).cu.own = .none ∧
      toldFrames (closeEvent b x).li.tx = toldFrames (beforeClaim b x).li.tx) ∨
    ∃ k cls rank, claimTest (beforeClaim b x) = some (k, cls, rank) ∧
      (closeEvent b x).cu.own = .settling (nextClaim (beforeClaim b x) k cls rank) none ∧
      toldFrames (closeEvent b x).li.tx = toldFrames (insertTail
        ⟨.claim (beforeClaim b x).sect (nextClaim (beforeClaim b x) k cls rank), 0⟩ (beforeClaim b x).li.tx) := by
  obtain ⟨toldRest, cu⟩ := requestEarly_rest b (followFlash b (testClaim (beforeClaim b x)))
  rw [closeEvent_eq, toldRest, cu]
  rcases testClaim_cases h with ⟨own, tx⟩ | ⟨k, cls, rank, ht, own, tx⟩
  · exact .inl ⟨own, congrArg toldFrames tx⟩
  · exact .inr ⟨k, cls, rank, ht, own, congrArg toldFrames tx⟩

theorem beforeClaim_sect (b x : State) : (closeEvent b x).sect = (beforeClaim b x).sect := by
  have e : (closeEvent b x).sj = (beforeClaim b x).sj := by
    rw [closeEvent_eq, requestEarly_sj]
    exact testClaim_sj _
  unfold State.sect
  rw [e]

/-- What waits after an event that has ended the own claim. -/
theorem leavesWaiting_closeEvent {b x : State} (h : (beforeClaim b x).cu.own = .none) :
    LeavesWaiting (beforeClaim b x).li.tx (closeEvent b x) := by
  rcases closeEvent_after h with ⟨own, tx⟩ | ⟨k, cls, rank, -, own, tx⟩
  · refine ⟨fun _ => tx, fun c due ho => ?_⟩
    rw [own] at ho
    cases ho
  · refine ⟨fun ho => ?_, fun c due ho => ?_⟩
    · rw [own] at ho
      cases ho
    · rw [own] at ho
      cases ho
      rw [beforeClaim_sect]
      exact tx

theorem not_granted_closeEvent {b x : State} (h : (beforeClaim b x).cu.own = .none) (c : Claim)
    (due : Option Time) : (closeEvent b x).cu.own ≠ .granted c due := by
  rcases closeEvent_after h with ⟨own, -⟩ | ⟨k, cls, rank, -, own, -⟩
  · rw [own]; simp
  · rw [own]; simp

/-- A frame of class 0 or 1 waits on. -/
theorem closeEvent_has {b x : State} (h : (beforeClaim b x).cu.own = .none) {f : TxFrame}
    (hf : f ∈ (beforeClaim b x).li.tx) (hc : bodyClass f.body ≠ 2) : f ∈ (closeEvent b x).li.tx := by
  rcases closeEvent_after h with ⟨-, tx⟩ | ⟨k, cls, rank, -, -, tx⟩
  · exact mem_of_told tx hc hf
  · exact mem_of_told tx hc ((insertTail_mem _ _ _).2 (.inr hf))

/-! ## A start that is over -/

/-- A GRANTED claim whose slot has left STARTING is released (R103). -/
theorem beforeEntry_released {b x : State} {c : Claim} {due : Option Time}
    (ho : x.cu.own = .granted c due) (hn : isStarting (x.slot c.slot).st = false) :
    beforeEntry b x = releaseClaim c (recomputeIfDue b (beforePlan b x)) := by
  have own : (recomputeIfDue b (beforePlan b x)).cu.own = .granted c due := by
    rw [recomputeIfDue_cu]
    unfold beforePlan
    rw [governingChanged_cu, followList_cu, ho]
  have left : ¬ isStarting ((recomputeIfDue b (beforePlan b x)).slot c.slot).st = true := fun hk => by
    have same := (((closes_beforePlan b x).trans (closes_recomputeIfDue b _)).slots c.slot).started hk
    rw [same, hn] at hk
    cases hk
  change followSlot (recomputeIfDue b (beforePlan b x)) = _
  unfold followSlot
  rw [own]
  exact if_neg left

theorem beforePlan_li (b x : State) : (recomputeIfDue b (beforePlan b x)).li = x.li := by
  rw [recomputeIfDue_li]
  unfold beforePlan
  rw [governingChanged_li]
  unfold followList
  split <;> rfl

theorem recomputed_sj (b x : State) : (recomputeIfDue b (beforePlan b x)).sj = (followList x).sj := by
  rw [recomputeIfDue_sj]
  exact governingChanged_sj _ _

theorem recomputed_sect (b x : State) : (recomputeIfDue b (beforePlan b x)).sect = x.sect := by
  unfold State.sect
  rw [recomputed_sj]
  unfold followList
  split <;> rfl

/-- What the end of a start leaves of its claim and of the queue (R103, R153). -/
structure Releases (k : SlotNo) (n : BitVec 8) (s u : State) : Prop where
  ended : ∀ c due, u.cu.own ≠ .granted c due
  queued : s.sj.mode ≠ .configFault → s.li.tx.length < 10 → ∃ f ∈ u.li.tx, f.body = .release s.sect k n
  replaced : ∀ l y r, s.sj.mode ≠ .configFault → s.li.tx = l ++ y :: r → claimNumber y.body = some n →
    (∀ z ∈ l, claimNumber z.body ≠ some n) → LeavesWaiting (l ++ ⟨.release s.sect k n, y.attempts⟩ :: r) u

/-- An event at which the slot of a GRANTED claim leaves STARTING releases the claim. -/
theorem releases_closeEvent {b x : State} {c : Claim} {due : Option Time}
    (ho : x.cu.own = .granted c due) (hn : isStarting (x.slot c.slot).st = false) :
    Releases c.slot c.number x (closeEvent b x) := by
  have released := beforeEntry_released (b := b) ho hn
  have none : (beforeEntry b x).cu.own = .none := by rw [released]; exact releaseClaim_own _ _
  obtain ⟨cu, li⟩ := beforeClaim_of_none none
  have ended : (beforeClaim b x).cu.own = .none := by rw [cu]; exact none
  have mode (hm : x.sj.mode ≠ .configFault) :
      (setOwn .none (recomputeIfDue b (beforePlan b x))).sj.mode ≠ .configFault := fun e => by
    rw [setOwn_sj, recomputed_sj] at e
    exact hm ((followList_fault x).1 e)
  have tx : (beforeClaim b x).li.tx = (place (.release x.sect c.slot c.number)
      (setOwn .none (recomputeIfDue b (beforePlan b x)))).li.tx := by
    rw [li, released]
    unfold releaseClaim
    rw [recomputed_sect]
  have start : (setOwn .none (recomputeIfDue b (beforePlan b x))).li.tx = x.li.tx := by
    rw [setOwn_li, beforePlan_li]
  refine ⟨not_granted_closeEvent ended, fun hm room => ?_, fun l y r hm hq hy hl => ?_⟩
  · obtain ⟨f, hf, hb⟩ := place_has (.release x.sect c.slot c.number) _ (mode hm) (by rw [start]; exact room)
      (by simp)
    rw [← tx] at hf
    exact ⟨f, closeEvent_has ended hf (by rw [hb]; simp [bodyClass]), hb⟩
  · have waiting := leavesWaiting_closeEvent ended
    rw [tx, place_replaces (y := y) (.release x.sect c.slot c.number) (mode hm) (by rw [start]; exact hq)
      (by simp [takesPlaceOf, hy]) (fun z hz => by simpa [takesPlaceOf] using hl z hz)] at waiting
    exact waiting

end Sys2Proof.Machine
end

section
/-! PROOFS. One slot acts on its own timer or feedback input: the start timer (O18), RUN_FB (O15), TRIP_FB and DIR_FB
(O16).  What the planner and a maintenance entry can make of the slot's new state is said once, for all of them. -/

namespace Sys2Proof.Machine

/-! ## What the recompute leaves -/

/-- What calls for a recompute stands, so none is made (R56). -/
theorem recomputeIfDue_same {s x : State} (hj : x.sj = s.sj) (hi : x.iu = s.iu) (hp : x.pt = s.pt)
    (hc : x.su.heat = s.su.heat) (hu : ∀ k, isUsable (x.slot k).st = isUsable (s.slot k).st) :
    recomputeIfDue s x = x := by
  have gov : governing x = governing s := governing_congr (by rw [hj]) (by rw [hi])
  have fans : availableFans x = availableFans s := by
    have count : x.fs.slots.count (fun sl => isUsable sl.st) = s.fs.slots.count fun sl => isUsable sl.st :=
      Quad.count_congr hu
    unfold availableFans
    rw [hj, count]
  have demand : demandOf x = demandOf s := by
    funext g
    unfold demandOf State.initialD
    rw [hj]
  have trigger : triggerOf s = triggerOf x := by
    unfold triggerOf
    rw [fans, gov, demand, hj, hp, hc]
  unfold recomputeIfDue
  split
  · rfl
  · exact if_pos ⟨trigger, yieldEnded_same gov⟩

/-- The mode is by the list and the same record governs. -/
theorem beforePlan_self {s x : State} (hm : ModeByList x) (hg : governing x = governing s) :
    beforePlan s x = x := by
  unfold beforePlan
  rw [followList_settled hm]
  exact governingChanged_same hg

theorem beforePlan_slot (b x : State) (k : SlotNo) : (beforePlan b x).slot k = x.slot k := by
  refine slot_congr ?_ k
  unfold beforePlan
  rw [governingChanged_fs]
  unfold followList
  split <;> rfl

/-- A recompute leaves a state that no target changes (R64). -/
theorem recomputed_st {b x : State} {k : SlotNo}
    (h : ∀ c r, stateOnTarget c r (x.slot k).st = (x.slot k).st) :
    ((recomputeIfDue b (beforePlan b x)).slot k).st = (x.slot k).st := by
  unfold recomputeIfDue
  split
  · rw [beforePlan_slot]
  · split
    · rw [beforePlan_slot]
    · rw [recompute_st, beforePlan_slot, h]

/-- Where no maintenance entry is made the event ends with the planner's recompute. -/
theorem closeEvent_waits {b x : State} (hw : maintReady (beforeEntry b x) = false) :
    PlanRest (recomputeIfDue b (beforePlan b x)) (closeEvent b x) := by
  rcases follow_cases b x with ⟨-, r⟩ | ⟨h, -⟩
  · exact r.trans (planRest_closeEvent b x)
  · rw [hw] at h
    cases h

/-! ## One slot acts -/

/-- Slot `k` as `sl` at the moment `t`, everything else as it was. -/
def acted (k : SlotNo) (sl : Slot) (t : Time) (s : State) : State := setSlot k sl (reachTime t s)

section Acted

variable {s : State} {k : SlotNo} {sl : Slot} {t : Time}

theorem acted_same : (acted k sl t s).slot k = sl := setSlot_slot_same _ _ _

theorem acted_ne {j : SlotNo} (h : j ≠ k) : (acted k sl t s).slot j = s.slot j := setSlot_slot_ne _ _ h

/-- An event at which one slot acts, with no maintenance entry to make: the pending entry is none, or waits for
another slot. -/
theorem acted_no_entry (h : s.fs.maintPending = false ∨
    ∃ j, j ≠ k ∧ isStartingOrCoasting (s.slot j).st = true) :
    maintReady (beforeEntry s (acted k sl t s)) = false := by
  rcases h with h | ⟨j, hj, h⟩
  · exact maintReady_of_not_pending (by rw [beforeEntry_entry]; exact h)
  · exact maintReady_of_busy (((closes_beforeEntry _ _).slots j).busy (by rw [acted_ne hj]; exact h))

/-- A slot that coasts keeps a pending entry waiting (R83). -/
theorem acted_coasts {due : Time} (h : sl.st = .coasting due) :
    maintReady (beforeEntry s (acted k sl t s)) = false :=
  maintReady_of_busy (k := k) (((closes_beforeEntry _ _).slots k).busy (by rw [acted_same, h]; rfl))

section Settled

variable (hs : Settled s)
include hs

/-- Where the available fans stand nothing is recomputed when one slot acts. -/
theorem acted_recomputed (h : isUsable sl.st = isUsable (s.slot k).st) :
    recomputeIfDue s (beforePlan s (acted k sl t s)) = acted k sl t s := by
  have mode : ModeByList (acted k sl t s) := hs.modeByList
  rw [beforePlan_self (s := s) mode (governing_congr rfl rfl)]
  refine recomputeIfDue_same rfl rfl rfl rfl fun j => ?_
  by_cases hj : j = k
  · rw [hj, acted_same, h]
  · rw [acted_ne hj]

/-- With no entry to make the slot is in the state it acted to, if the available fans stand or no target changes
that state. -/
theorem acted_waits (hw : maintReady (beforeEntry s (acted k sl t s)) = false)
    (h : isUsable sl.st = isUsable (s.slot k).st ∨ ∀ x r, stateOnTarget x r sl.st = sl.st) :
    ((closeEvent s (acted k sl t s)).slot k).st = sl.st := by
  rw [(closeEvent_waits hw).slot]
  rcases h with h | h
  · rw [acted_recomputed hs h, acted_same]
  · rw [recomputed_st (by rw [acted_same]; exact h), acted_same]

/-- A slot that acts without a change of its state lets no entry be made that could not be before. -/
theorem acted_idle (h : sl.st = (s.slot k).st) : maintReady (beforeEntry s (acted k sl t s)) = false := by
  have rest := planRest_beforeEntry s (acted k sl t s)
  rw [acted_recomputed hs (by rw [h])] at rest
  have settled := hs.noEntryDue
  rw [Bool.eq_false_iff, ne_eq, maintReady_iff] at settled ⊢
  rintro ⟨pending, mode, idle⟩
  rw [rest.fs] at pending
  rw [rest.sj] at mode
  refine settled ⟨pending, mode, fun j => ?_⟩
  have := idle j
  rw [rest.slot] at this
  by_cases hj : j = k
  · rw [hj, ← h]
    rwa [hj, acted_same] at this
  · rwa [acted_ne hj] at this

end Settled

/-- A start that is over releases its claim (R103). -/
theorem acted_releases {c : Claim} {due : Option Time} (ho : s.cu.own = .granted c due) (hc : c.slot = k)
    (hn : isStarting sl.st = false) : Releases k c.number s (closeEvent s (acted k sl t s)) := by
  subst hc
  have released := releases_closeEvent (b := s) (x := acted c.slot sl t s) ho (by rw [acted_same]; exact hn)
  exact ⟨released.ended, released.queued, released.replaced⟩

end Acted

/-! ## The start timer (O18) -/

theorem startExpiry_next {s : State} {k : SlotNo} {d : Direction} {t : Time}
    (h : (s.slot k).st = .starting d t) : exec (.startTimerExpiry k) s =
      .next (closeEvent s (acted k (startExpired (reachTime t s).slotCtx (s.slot k)) t s)) := by
  have due : startDue (s.slot k) = some t := by unfold startDue; rw [h]
  change onTimer (startDue (s.slot k)) (slotActs k startExpired) s = _
  rw [due]
  rfl

/-- What a fault under drive makes of a slot (R80). -/
theorem countFault_eq (cause : LockCause) (other : SlotState) (sl : Slot) : countFault cause other sl =
    { sl with faults := sl.faults + 1, st := if sl.faults + 1 < 2 then other else .lockedOut cause } := by
  unfold countFault
  by_cases h : 2 ≤ sl.faults + 1
  · rw [if_pos h, if_neg (by omega)]
  · rw [if_neg h, if_pos (by omega)]

/-- A slot that comes to coast or to be locked out has no drive after the event. -/
theorem driveOut_closes {x u : State} {k : SlotNo} (c : Closes x u)
    (h : (∃ due, (x.slot k).st = .coasting due) ∨ ∃ cause, (x.slot k).st = .lockedOut cause) :
    driveOut u k = none := by
  unfold driveOut
  split
  · rfl
  · rcases h with ⟨due, h⟩ | ⟨cause, h⟩
    · rw [(c.slots k).coasting due h]; rfl
    · rw [((c.slots k).locked cause).2 h]; rfl

/-- What a failed start makes of a slot (R69, R80). -/
def failedStart (now : Time) (sl : Slot) : Slot :=
  { sl with
    faults := sl.faults + 1
    st := if sl.faults + 1 < 2 then .coasting (now + 45000000) else .lockedOut .startFail }

theorem startExpired_eq (x : SlotCtx) (sl : Slot) : startExpired x sl = failedStart x.now sl :=
  countFault_eq _ _ _

theorem failedStart_cases (now : Time) (sl : Slot) : (∃ due, (failedStart now sl).st = .coasting due) ∨
    ∃ cause, (failedStart now sl).st = .lockedOut cause := by
  unfold failedStart
  dsimp only
  split
  · exact .inl ⟨_, rfl⟩
  · exact .inr ⟨_, rfl⟩

theorem not_starting_of_ended {st : SlotState} (h : (∃ due, st = .coasting due) ∨ ∃ cause, st = .lockedOut cause) :
    isStarting st = false := by
  rcases h with ⟨_, h⟩ | ⟨_, h⟩ <;> rw [h] <;> rfl

/-- Settles O18: the failed start is a fault under drive, and the claim follows its slot. -/
theorem startTimerFailsTheStart : Obligations.StartTimerFailsTheStart := by
  intro s k d t h
  have next := startExpiry_next h
  rw [startExpired_eq] at next
  have ended := failedStart_cases (reachTime t s).slotCtx.now (s.slot k)
  refine ⟨_, next, closes_closeEvent _ _, driveOut_closes (k := k) (closes_closeEvent _ _) ?_, fun c due ho hc => ?_⟩
  · rw [acted_same]
    exact ended
  · have released := acted_releases (s := s) (t := t) ho hc (not_starting_of_ended ended)
    exact ⟨released.ended, released.queued, released.replaced⟩

/-! ## A feedback input is taken (R61) -/

/-- The slot once the filter of its input `n` has expired. -/
def filtered (n : SlotInput) (now : Time) (pending : Bool) (sl : Slot) : Slot :=
  actOnInput ⟨now, pending⟩ n (sl.setInput n (pinTaken (sl.input n)))

theorem filterExpiry_next {s : State} {k : SlotNo} {n : SlotInput} {t : Time}
    (h : ((s.slot k).input n).due = some t) : exec (.slotInputFilterExpiry k n) s =
      .next (closeEvent s (acted k (filtered n (max s.now t) s.fs.maintPending (s.slot k)) t s)) := by
  change onTimer ((s.slot k).input n).due _ s = _
  rw [h]
  rfl

theorem runningWith_eq (x : SlotCtx) (d : Direction) (r : Target) :
    runningWith x d r = if r = .run d then .running d else coastFrom x := by
  unfold runningWith
  cases r with
  | off => rw [if_neg (by simp)]
  | run y => simp only [Target.run.injEq]

/-! ## RUN_FB (O15) -/

/-- The state RUN_FB taken asserted makes of a slot (R68, R79). -/
def ranState (x : SlotCtx) (sl : Slot) : SlotState :=
  match sl.st with
  | .starting d _ => if sl.target = .run d then .running d else coastFrom x
  | .stopped | .startWait _ => coastFrom x
  | .running _ | .coasting _ | .tripped _ | .lockedOut _ | .localControl | .absent => sl.st

theorem runAsserted_eq (x : SlotCtx) (sl : Slot) : runAsserted x sl = { sl with st := ranState x sl } := by
  unfold runAsserted ranState
  cases h : sl.st <;> simp only [runningWith_eq, ← h]

theorem ranState_usable (x : SlotCtx) (sl : Slot) : isUsable (ranState x sl) = isUsable sl.st := by
  unfold ranState
  split
  · rename_i h
    rw [h]
    split <;> rfl
  · rename_i h; rw [h]; rfl
  · rename_i h; rw [h]; rfl
  all_goals rfl

theorem filtered_runAsserted {sl : Slot} (now : Time) (pending : Bool) (h : sl.runFb.pin = true) :
    filtered .runFb now pending sl = { sl with
      st := ranState ⟨now, pending⟩ sl, runFb := { sl.runFb with level := true, due := none } } := by
  unfold filtered actOnInput
  have level : (sl.setInput .runFb (pinTaken (sl.input .runFb))).runFb.level = true := h
  rw [if_pos level, runAsserted_eq]
  change { sl with st := ranState _ sl, runFb := { sl.runFb with level := sl.runFb.pin, due := none } } = _
  rw [h]

/-- What RUN_FB taken released makes of a slot (R71, R80): the count and the state. -/
def lostState (x : SlotCtx) (sl : Slot) : Nat × SlotState :=
  match sl.st, sl.tripFb.level with
  | .running _, false =>
    (sl.faults + 1, if sl.faults + 1 < 2 then coastFrom x else .lockedOut .trip)
  | _, _ => (sl.faults, sl.st)

theorem lostState_running {x : SlotCtx} {sl : Slot} {d : Direction} (h : sl.st = .running d)
    (ht : sl.tripFb.level = false) : lostState x sl =
      (sl.faults + 1, if sl.faults + 1 < 2 then coastFrom x else .lockedOut .trip) := by
  unfold lostState
  rw [h, ht]

theorem lostState_other {x : SlotCtx} {sl : Slot}
    (h : (∀ d, sl.st ≠ .running d) ∨ sl.tripFb.level = true) : lostState x sl = (sl.faults, sl.st) := by
  unfold lostState
  split
  · rename_i d hd ht
    rcases h with h | h
    · exact absurd hd (h d)
    · rw [h] at ht; cases ht
  · rfl

theorem runReleased_eq (x : SlotCtx) (sl : Slot) :
    runReleased x sl = { sl with faults := (lostState x sl).1, st := (lostState x sl).2 } := by
  unfold runReleased
  split
  · rename_i d hd
    split
    · rename_i ht
      rw [lostState_other (.inr ht)]
    · rename_i ht
      rw [lostState_running hd (by simpa using ht), countFault_eq]
  all_goals
    rename_i hd
    rw [lostState_other (.inl (by simp [hd]))]

theorem filtered_runReleased {sl : Slot} (now : Time) (pending : Bool) (h : sl.runFb.pin = false) :
    filtered .runFb now pending sl = { sl with
      st := (lostState ⟨now, pending⟩ sl).2, faults := (lostState ⟨now, pending⟩ sl).1,
      runFb := { sl.runFb with level := false, due := none } } := by
  unfold filtered actOnInput
  have level : (sl.setInput .runFb (pinTaken (sl.input .runFb))).runFb.level = false := h
  rw [if_neg (by rw [level]; simp), runReleased_eq]
  change { sl with
    st := (lostState _ sl).2, faults := (lostState _ sl).1,
    runFb := { sl.runFb with level := sl.runFb.pin, due := none } } = _
  rw [h]

/-- RUN_FB taken released leaves the slot in its state, coasting or locked out, each of which stands through the
event (R71). -/
theorem runReleased_stands {s : State} {k : SlotNo} {t : Time} (hs : Settled s)
    (h : (s.slot k).runFb.pin = false) :
    ((closeEvent s (acted k (filtered .runFb (max s.now t) s.fs.maintPending (s.slot k)) t s)).slot k).st =
      (lostState ⟨max s.now t, s.fs.maintPending⟩ (s.slot k)).2 := by
  have st : (filtered .runFb (max s.now t) s.fs.maintPending (s.slot k)).st =
      (lostState ⟨max s.now t, s.fs.maintPending⟩ (s.slot k)).2 := by rw [filtered_runReleased _ _ h]
  rw [← st]
  by_cases lost : (∃ d, (s.slot k).st = .running d) ∧ (s.slot k).tripFb.level = false
  · obtain ⟨⟨d, hd⟩, ht⟩ := lost
    rw [lostState_running hd ht] at st
    dsimp only at st
    split at st
    · refine acted_waits hs (acted_coasts st) (.inl ?_)
      rw [st, hd]
      rfl
    · rw [st]
      exact (((closes_closeEvent _ _).slots k).locked _).2 (by rw [acted_same, st])
  · have other : (∀ d, (s.slot k).st ≠ .running d) ∨ (s.slot k).tripFb.level = true := by
      by_cases hd : ∃ d, (s.slot k).st = .running d
      · exact .inr (by simpa using fun ht => lost ⟨hd, ht⟩)
      · exact .inl fun d e => hd ⟨d, e⟩
    rw [lostState_other other] at st
    exact acted_waits hs (acted_idle hs st) (.inl (by rw [st]))

/-- Settles O15: the slot acts on RUN_FB by `ranState` or `lostState`, and its claim follows it. -/
theorem runFeedbackTaken : Obligations.RunFeedbackTaken := by
  refine ⟨fun s k t due pin => ?_, fun s k t due pin => ?_⟩
  · have next := filterExpiry_next (n := .runFb) due
    rw [filtered_runAsserted _ _ pin] at next
    refine ⟨_, _, next, closes_closeEvent _ _, fun hs hw => ?_, ?_⟩
    · exact acted_waits hs (acted_no_entry hw) (.inl (ranState_usable _ _))
    · split
      · rename_i d h hst
        have ran : ranState ⟨max s.now t, s.fs.maintPending⟩ (s.slot k) =
            if (s.slot k).target = .run d then .running d else .coasting (max s.now t + 45000000) := by
          unfold ranState
          rw [hst]
          rfl
        refine ⟨ran, fun c due ho hc => ?_⟩
        have released := acted_releases (s := s) (t := t) (sl := { s.slot k with
          st := ranState ⟨max s.now t, s.fs.maintPending⟩ (s.slot k)
          runFb := { (s.slot k).runFb with level := true, due := none } }) ho hc (by
            rw [ran]
            split <;> rfl)
        exact ⟨released.ended, released.queued, released.replaced⟩
      case h_2 | h_3 =>
        rename_i hst
        unfold ranState
        rw [hst]
        rfl
      all_goals
        rename_i hst
        unfold ranState
        rw [hst]
  · have next := filterExpiry_next (n := .runFb) due
    have stands := fun hs : Settled s => runReleased_stands (t := t) hs pin
    rw [filtered_runReleased _ _ pin] at next stands
    refine ⟨_, _, _, next, closes_closeEvent _ _, stands, fun ⟨⟨d, hd⟩, ht⟩ => ?_, fun h => ?_⟩
    · rw [lostState_running hd ht]
      exact ⟨rfl, rfl⟩
    · rw [lostState_other h]
      exact ⟨rfl, rfl⟩

/-! ## TRIP_FB and DIR_FB (O16) -/

/-- What TRIP_FB taken makes of a slot (R76, R77, R78): the count and the state. -/
def trippedState (x : SlotCtx) (asserted : Bool) (sl : Slot) : Nat × SlotState :=
  match asserted, sl.st with
  | true, .starting _ _ | true, .running _ =>
    (sl.faults + 1, if sl.faults + 1 < 2 then tripFrom x else .lockedOut .trip)
  | true, .stopped | true, .startWait _ | true, .coasting _ => (sl.faults, tripFrom x)
  | false, .tripped none => (sl.faults, coastFrom x)
  | _, _ => (sl.faults, sl.st)

theorem tripAsserted_eq (x : SlotCtx) (sl : Slot) : tripAsserted x sl =
    { sl with faults := (trippedState x true sl).1, st := (trippedState x true sl).2 } := by
  unfold tripAsserted trippedState
  split <;> rename_i h <;> simp only [h, countFault_eq]
  all_goals simp only [← h]

theorem tripReleased_eq (x : SlotCtx) (sl : Slot) : tripReleased x sl =
    { sl with faults := (trippedState x false sl).1, st := (trippedState x false sl).2 } := by
  unfold tripReleased trippedState
  split <;> rename_i h <;> simp only [h]
  all_goals simp only [← h]

theorem filtered_trip {sl : Slot} (now : Time) (pending : Bool) :
    filtered .tripFb now pending sl = { sl with
      st := (trippedState ⟨now, pending⟩ sl.tripFb.pin sl).2,
      faults := (trippedState ⟨now, pending⟩ sl.tripFb.pin sl).1,
      tripFb := { sl.tripFb with level := sl.tripFb.pin, due := none } } := by
  unfold filtered actOnInput
  have level : (sl.setInput .tripFb (pinTaken (sl.input .tripFb))).tripFb.level = sl.tripFb.pin := rfl
  dsimp only
  rw [level]
  cases h : sl.tripFb.pin with
  | true =>
    rw [if_pos rfl, tripAsserted_eq, ← h]
    rfl
  | false =>
    rw [if_neg (by simp), tripReleased_eq, ← h]
    rfl

/-- The state TRIP_FB leaves is usable as it was, or one that no target changes. -/
theorem trippedState_stands (x : SlotCtx) (p : Bool) (sl : Slot) :
    isUsable (trippedState x p sl).2 = isUsable sl.st ∨
      ∀ y r, stateOnTarget y r (trippedState x p sl).2 = (trippedState x p sl).2 := by
  unfold trippedState
  split
  case h_1 | h_2 =>
    right
    intro y r
    dsimp only
    split <;> rfl
  case h_3 | h_4 | h_5 | h_6 => exact .inr fun y r => rfl
  all_goals exact .inl rfl

/-- Settles O16: the slot acts on TRIP_FB by `trippedState`, and its claim follows it. -/
theorem tripAndDirectionFeedbackTaken : Obligations.TripAndDirectionFeedbackTaken := by
  refine ⟨fun s k t due => ?_, fun s k t due => ⟨_, filterExpiry_next (n := .dirFb) due, closes_closeEvent _ _⟩⟩
  have next := filterExpiry_next (n := .tripFb) due
  rw [filtered_trip] at next
  refine ⟨_, _, _, next, closes_closeEvent _ _, ?_, fun hs hw => ?_, fun c due d h pin hst ho hc => ?_⟩
  · unfold trippedState
    split <;> simp_all <;> rfl
  · exact acted_waits hs (acted_no_entry hw) (trippedState_stands _ _ _)
  · have released := acted_releases (s := s) (t := t) (sl := { s.slot k with
      st := (trippedState ⟨max s.now t, s.fs.maintPending⟩ (s.slot k).tripFb.pin (s.slot k)).2,
      faults := (trippedState ⟨max s.now t, s.fs.maintPending⟩ (s.slot k).tripFb.pin (s.slot k)).1,
      tripFb := { (s.slot k).tripFb with level := (s.slot k).tripFb.pin, due := none } }) ho hc (by
        unfold trippedState
        rw [pin, hst]
        dsimp only
        split <;> rfl)
    exact ⟨released.ended, released.queued, released.replaced⟩

end Sys2Proof.Machine
end

section
/-! PROOFS. Pins and straps: a pin's new level starts its filter (O9), reset release latches the straps (O4), and the
starting levels are taken 100 ms later (O17). -/

namespace Sys2Proof.Machine

/-! ## Pins (O9) -/

theorem inputChanged_released (now : Time) {v : Bool} {d : Debounced} (h : v ≠ d.pin) :
    inputChanged false now v d = ⟨v, d.level, if v = d.level then none else some (now + 1000000)⟩ := by
  unfold inputChanged
  rw [if_neg h]
  simp only [Bool.false_or, beq_iff_eq]
  rfl

theorem pinChanged_started (now : Time) {v : Bool} {p : SlotPin} (h : v ≠ p.pin) :
    pinChanged now false v p =
      { p with pin := v, due := if v = p.level then none else some (now + 100000) } := by
  unfold pinChanged
  rw [if_neg h]
  rfl

/-- Settles O9. -/
theorem pinChangesStartTheirFilters : Obligations.PinChangesStartTheirFilters := by
  refine ⟨fun s i v held pin => ?_, fun s k i v held fitted started pin => ?_⟩
  · change Host.Outcome.next (setSu (s.su.setInput i (inputChanged s.sj.held s.now v (s.su.input i))) s) = _
    rw [held, inputChanged_released _ pin]
    rfl
  · have read : (s.sj.held || isAbsent (s.slot k).st) = false := by
      rw [held]
      cases h : (s.slot k).st with
      | absent => exact absurd h fitted
      | _ => rfl
    change Host.Outcome.next (setSlot k ((s.slot k).setInput i
      (if s.sj.held || isAbsent (s.slot k).st then pinOnly v ((s.slot k).input i)
        else pinChanged s.now s.fs.initDue.isSome v ((s.slot k).input i))) s) = _
    rw [read, started]
    simp only [Bool.false_eq_true, if_false, Option.isSome_none]
    rw [pinChanged_started _ pin]

/-! ## The strap word (O4) -/

theorem strapField_eq (w : BitVec 28) (a n : Nat) : strapField w a n = w.toNat / 2 ^ a % 2 ^ n := by
  unfold strapField
  rw [BitVec.extractLsb'_toNat, Nat.shiftRight_eq_div_pow]

theorem strapSpacing_eq (w : BitVec 28) :
    strapSpacing w = [60, 80, 100, 120, 150, 200, 250, 300].getD (w.toNat / 16384 % 8) 0 := by
  have field : strapField w 14 3 = w.toNat / 16384 % 8 := strapField_eq w 14 3
  unfold strapSpacing
  rw [field]
  have small : w.toNat / 16384 % 8 < 8 := Nat.mod_lt _ (by decide)
  generalize w.toNat / 16384 % 8 = n at small
  interval_cases n <;> rfl

theorem strapRate_eq (w : BitVec 28) : strapRate w = w.toNat / 67108864 := by
  have field : strapRate w = w.toNat / 67108864 % 4 := strapField_eq w 26 2
  have bound : w.toNat < 268435456 := w.isLt
  omega

theorem strapsValid_false (w : BitVec 28) : strapsValid w = false ↔
    (strapStation w = 0 ∨ 120 < strapStation w) ∨ (strapCount w < 2 ∨ 120 < strapCount w) ∨
      strapCount w < strapStation w ∨ strapSection w = 0 := by
  rw [Bool.eq_false_iff]
  unfold strapsValid
  simp only [ne_eq, Bool.and_eq_true, decide_eq_true_eq, bne_iff_ne]
  omega

/-- The fault output of a slot as reset release begins it (R163). -/
theorem flashBegin_released (now : Time) (fitted : Bool) (sl : Slot) :
    flashBegin now (patternOf (slotReleased now fitted sl).st) =
      (match (slotReleased now fitted sl).st with
        | .lockedOut .startFail => ⟨true, none⟩
        | .lockedOut .trip => ⟨true, some (now + 500000)⟩
        | .lockedOut .stuck => ⟨true, some (now + 125000)⟩
        | _ => ⟨false, none⟩) := by
  unfold slotReleased
  cases fitted with
  | false => rfl
  | true =>
    cases lockoutOf sl with
    | none => rfl
    | some c => cases c <;> rfl

theorem releaseReset_slot_eq (w : BitVec 28) (s : State) (k : SlotNo) : (releaseReset w s).slot k =
    slotReleased s.now (decide (slotNumber k ≤ strapFans w)) (s.slot k) := Quad.get_mapNo _ _ _

theorem releaseReset_flash (w : BitVec 28) (s : State) (k : SlotNo) :
    (releaseReset w s).no.flash.get k = flashBegin s.now (patternOf ((releaseReset w s).slot k).st) :=
  Quad.get_map _ _ _

theorem slotReleased_input (now : Time) (fitted : Bool) (sl : Slot) (i : SlotInput) :
    (slotReleased now fitted sl).input i = ⟨(sl.input i).pin, false, (sl.input i).pin, none⟩ := by
  cases i <;> rfl

theorem slotReleased_st (now : Time) (fitted : Prop) [Decidable fitted] (sl : Slot) :
    (slotReleased now (decide fitted) sl).st = (if fitted then
      (match lockoutOf sl with
        | some c => .lockedOut c
        | none => .coasting (now + 45000000))
      else .absent) := by
  unfold slotReleased
  by_cases h : fitted
  · simp only [h, decide_true, if_true]
    rfl
  · simp only [h, decide_false, if_false, Bool.false_eq_true]

theorem slotReleased_kept (now : Time) (fitted : Prop) [Decidable fitted] (sl : Slot) :
    (slotReleased now (decide fitted) sl).kept = if fitted then none else lockoutOf sl := by
  unfold slotReleased
  by_cases h : fitted
  · simp only [h, decide_true, if_true]
  · simp only [h, decide_false, if_false, Bool.false_eq_true]

/-- Settles O4: the fields of the strap word, and the release slot by slot. -/
theorem resetReleaseLatchesTheStraps : Obligations.ResetReleaseLatchesTheStraps := by
  refine ⟨fun w => ⟨?_, ?_, strapSpacing_eq w, ?_, ?_, ?_, strapRate_eq w, strapsValid_false w⟩,
    fun w s held => ⟨releaseReset w s, ?_, rfl, fun k => ?_, rfl, rfl, rfl, fun i => ?_, rfl, rfl, rfl, rfl, rfl,
      rfl, rfl, rfl, rfl, rfl⟩⟩
  · exact (strapField_eq w 0 7).trans (by simp)
  · exact strapField_eq w 7 7
  · exact (congrArg (min · 4) (strapField_eq w 17 3)).trans (Nat.min_comm _ _)
  · exact strapField_eq w 20 4
  · exact strapField_eq w 24 2
  · change (if s.sj.held = true then _ else _) = _
    rw [if_pos held]
  · rw [releaseReset_flash, releaseReset_slot_eq]
    exact ⟨rfl, rfl, slotReleased_input _ _ _, slotReleased_st _ _ _, slotReleased_kept _ _ _,
      flashBegin_released _ _ _⟩
  · cases i <;> rfl

/-! ## The starting levels (O17) -/

theorem takeStartingLevels_slot (s : State) (k : SlotNo) :
    (takeStartingLevels s).slot k = startingLevels s.slotCtx (s.slot k) := Quad.get_map _ _ _

/-- What the starting levels leave of a fitted slot that takes them COASTING or LOCKED_OUT: a trip of a COASTING one
(R61, R77, R81). -/
def startedState (now : Time) (sl : Slot) : SlotState :=
  match sl.st, sl.tripFb.start with
  | .coasting _, true => .tripped (some (now + 120000000))
  | _, _ => sl.st

/-- The slot with its pins' levels of the release taken. -/
def startedSlot (now : Time) (sl : Slot) : Slot :=
  { sl with
    st := startedState now sl
    runFb := pinStarted sl.runFb, tripFb := pinStarted sl.tripFb, dirFb := pinStarted sl.dirFb }

theorem startingLevels_coasting (x : SlotCtx) {sl : Slot} {due : Time} (h : sl.st = .coasting due) :
    startingLevels x sl = startedSlot x.now sl := by
  unfold startingLevels startedSlot startedState
  rw [h]
  cases trip : sl.tripFb.start <;> cases run : sl.runFb.start <;>
    simp [pinStarted, trip, run, tripAsserted, runAsserted, tripFrom, tripHoldTime] <;> rfl

theorem startingLevels_lockedOut (x : SlotCtx) {sl : Slot} {c : LockCause} (h : sl.st = .lockedOut c) :
    startingLevels x sl = startedSlot x.now sl := by
  unfold startingLevels startedSlot startedState
  rw [h]
  cases trip : sl.tripFb.start <;> cases run : sl.runFb.start <;>
    simp [pinStarted, trip, run, tripAsserted, runAsserted]

theorem startingLevels_absent (x : SlotCtx) {sl : Slot} (h : sl.st = .absent) : startingLevels x sl = sl := by
  unfold startingLevels
  rw [h]

/-- No target touches an ABSENT slot (R63). -/
theorem recomputed_absent {b x : State} {k : SlotNo} (h : (x.slot k).st = .absent) :
    (recomputeIfDue b (beforePlan b x)).slot k = x.slot k := by
  have handed (c : SlotCtx) (r : Target) : handTarget c r (x.slot k) = x.slot k := by
    unfold handTarget
    rw [h]
  unfold recomputeIfDue
  split
  · exact beforePlan_slot b x k
  · split
    · exact beforePlan_slot b x k
    · rw [recompute_slot, beforePlan_slot, handed]

theorem startedState_stands (now : Time) {sl : Slot}
    (h : (∃ due, sl.st = .coasting due) ∨ ∃ c, sl.st = .lockedOut c) (x : SlotCtx) (r : Target) :
    stateOnTarget x r (startedState now sl) = startedState now sl := by
  unfold startedState
  split
  · rfl
  · rcases h with ⟨due, h⟩ | ⟨c, h⟩ <;> rw [h] <;> rfl

/-- A slot that takes its starting levels, through the event. -/
theorem startingLevels_closes {s x u : State} {k : SlotNo} (now : Time) (hx : Closes x u)
    (slot : x.slot k = startedSlot now (s.slot k))
    (stands : (u.slot k).st = (x.slot k).st) :
    (∀ i, (u.slot k).input i = { (s.slot k).input i with level := ((s.slot k).input i).start }) ∧
      (u.slot k).faults = (s.slot k).faults ∧ (u.slot k).st = startedState now (s.slot k) := by
  have c := hx.slots k
  rw [slot] at c stands
  refine ⟨fun i => ?_, c.faults, stands⟩
  cases i
  · exact c.runFb
  · exact c.tripFb
  · exact c.dirFb

/-- Settles O17: the levels are taken slot by slot, and nothing that follows changes what they leave. -/
theorem startingLevelsAreTaken : Obligations.StartingLevelsAreTaken := by
  intro s t due pending
  have next : exec .slotInputInitialLevels s = .next (closeEvent s (takeStartingLevels (reachTime t s))) := by
    change onTimer s.fs.initDue takeStartingLevels s = _
    rw [due]
    rfl
  have closing := closes_closeEvent s (takeStartingLevels (reachTime t s))
  have rest : PlanRest (recomputeIfDue s (beforePlan s (takeStartingLevels (reachTime t s))))
      (closeEvent s (takeStartingLevels (reachTime t s))) :=
    closeEvent_waits (maintReady_of_not_pending (by rw [beforeEntry_entry]; exact pending))
  have taken (k : SlotNo) := takeStartingLevels_slot (reachTime t s) k
  have fitted {k : SlotNo} (h : (∃ due, (s.slot k).st = .coasting due) ∨ ∃ c, (s.slot k).st = .lockedOut c)
      (slot : (takeStartingLevels (reachTime t s)).slot k = startedSlot (max s.now t) (s.slot k)) :=
    startingLevels_closes (max s.now t) closing slot (by
      rw [rest.slot, recomputed_st]
      rw [slot]
      exact startedState_stands _ h)
  refine ⟨_, next, closing.init, closing.now, closing.su, closing.pt, fun k =>
    ⟨fun h => ?_, fun due h => ?_, fun c h => ?_⟩⟩
  · have same : (takeStartingLevels (reachTime t s)).slot k = s.slot k :=
      (taken k).trans (startingLevels_absent _ h)
    rw [rest.slot, recomputed_absent (by rw [same]; exact h), same]
  · obtain ⟨inputs, faults, st⟩ := fitted (.inl ⟨due, h⟩) ((taken k).trans (startingLevels_coasting _ h))
    refine ⟨inputs, faults, st.trans ?_⟩
    unfold startedState
    rw [h]
    cases (s.slot k).tripFb.start <;> rfl
  · obtain ⟨inputs, faults, st⟩ := fitted (.inr ⟨c, h⟩) ((taken k).trans (startingLevels_lockedOut _ h))
    refine ⟨inputs, faults, st.trans ?_⟩
    unfold startedState
    rw [h]

end Sys2Proof.Machine
end

section
/-! PROOFS. Maintenance: an entry that is made, waits or is dropped (O13), and the exit (O14). -/

namespace Sys2Proof.Machine

/-! ## MAINT as debounced -/

/-- MAINT's level taken at the moment `t`, everything else as it was (R133). -/
def maintTaken (v : Bool) (t : Time) (s : State) : State :=
  setSu (s.su.setInput .maint ⟨v, v, none⟩) (reachTime t s)

theorem maintDebounce_next {s : State} {t : Time} {v : Bool} (due : s.su.maint.due = some t)
    (pin : s.su.maint.pin = v) : exec (.debounceExpiry .maint) s =
      .next (closeEvent s (maintReported v (maintTaken v t s))) := by
  change onTimer s.su.maint.due
    (fun s => inputActs .maint (setSu (s.su.setInput .maint (inputTaken (s.su.input .maint))) s)) s = _
  rw [due, ← pin]
  rfl

/-- No entry is pending after an event that leaves none pending. -/
theorem closeEvent_pending {b x : State} (h : x.fs.maintPending = false) :
    (closeEvent b x).fs.maintPending = false := by
  have rest := closeEvent_waits (b := b) (x := x) (maintReady_of_not_pending (by rw [beforeEntry_entry]; exact h))
  rw [rest.fs, recomputeIfDue_entry]
  unfold beforePlan
  rw [governingChanged_fs]
  unfold followList
  split <;> exact h

/-! ## The entry (O13) -/

/-- A slot that the entry has taken has no drive (R84). -/
theorem intoLocal_st (sl : Slot) : (intoLocal sl).st =
    (match sl.st with
      | .absent => .absent
      | .lockedOut c => .lockedOut c
      | .stopped | .startWait _ | .starting _ _ | .running _ | .coasting _ | .tripped _
      | .localControl => .localControl) := by
  unfold intoLocal
  split <;> rename_i h <;> simp only [h]

theorem intoLocal_drive (sl : Slot) : driveOf (intoLocal sl).st = none := by
  rw [intoLocal_st]
  split <;> rfl

theorem intoLocal_rest (sl : Slot) : (intoLocal sl).faults = sl.faults ∧ ∀ i, (intoLocal sl).input i = sl.input i := by
  unfold intoLocal
  split
  case h_1 | h_2 => exact ⟨rfl, fun _ => rfl⟩
  all_goals exact ⟨rfl, fun i => by cases i <;> rfl⟩

/-- What follows an event leaves a slot that is LOCAL, LOCKED_OUT or ABSENT in its state. -/
theorem SlotCloses.intoLocal_st {now : Time} {sl b : Slot} (c : SlotCloses now (intoLocal sl) b) :
    b.st = (intoLocal sl).st := by
  have st := Machine.intoLocal_st sl
  split at st
  · rw [st]; exact c.absent.2 st
  · rw [st]; exact (c.locked _).2 st
  all_goals rw [st]; exact c.isLocal st

theorem driveOut_of_none {s : State} {k : SlotNo} (h : driveOf (s.slot k).st = none) : driveOut s k = none := by
  unfold driveOut
  rw [h, ite_self]

/-- The entry that R83 lets be made (R84). -/
theorem maintenanceEntry_taken {s : State} (ready : maintReady s = true) :
    ∃ u, exec .maintenanceEntry s = .next u ∧ u.sj = { s.sj with mode := .maintenance } ∧
      u.fs.maintPending = false ∧ u.su = s.su ∧ u.pt = s.pt ∧ u.iu.records.map bare = s.iu.records.map bare ∧
      ∀ k, SlotCloses s.now (intoLocal (s.slot k)) (u.slot k) := by
  have next : exec .maintenanceEntry s = .next (closeEvent s (enterMaintenance s)) := by
    change onReady (maintReady s) enterMaintenance s = _
    rw [ready]
    rfl
  have closing := closes_closeEvent s (enterMaintenance s)
  refine ⟨_, next, closeEvent_sj s rfl, closeEvent_pending rfl, closing.su, closing.pt, closing.bare, fun k => ?_⟩
  have slot := closing.slots k
  rwa [enterMaintenance_slot] at slot

/-- MAINT debounced asserted makes an entry pending (R83, R136). -/
def asserted (t : Time) (s : State) : State := pendMaintenance (maintTaken true t s)

theorem maintAsserted_next {s : State} {t : Time} (due : s.su.maint.due = some t) (pin : s.su.maint.pin = true)
    (mode : s.sj.mode = .quiet ∨ s.sj.mode = .incident) :
    exec (.debounceExpiry .maint) s = .next (closeEvent s (asserted t s)) := by
  rw [maintDebounce_next due pin]
  have reported : maintReported true (maintTaken true t s) = asserted t s := by
    unfold maintReported
    have same : (maintTaken true t s).sj.mode = s.sj.mode := rfl
    rcases mode with h | h <;> rw [same, h] <;> rfl
  rw [reported]

/-- Nothing is recomputed before the entry is considered. -/
theorem planRest_asserted {s : State} (hs : Settled s) (t : Time) :
    PlanRest (asserted t s) (beforeEntry s (asserted t s)) := by
  have rest := planRest_beforeEntry s (asserted t s)
  have mode : ModeByList (asserted t s) := hs.modeByList
  rwa [beforePlan_self (s := s) mode (governing_congr rfl rfl),
    recomputeIfDue_same (s := s) (x := asserted t s) rfl rfl rfl rfl fun _ => rfl] at rest

/-- With no slot STARTING or COASTING the entry is made at once. -/
theorem maintAsserted_enters {s : State} (hs : Settled s) (t : Time)
    (mode : s.sj.mode = .quiet ∨ s.sj.mode = .incident)
    (idle : ∀ k, isStartingOrCoasting (s.slot k).st = false) :
    maintReady (beforeEntry s (asserted t s)) = true := by
  have rest := planRest_asserted hs t
  rw [maintReady_iff, rest.fs, rest.sj]
  exact ⟨rfl, mode, fun k => by rw [rest.slot]; exact idle k⟩

/-- A settled state stays settled when an entry that must wait becomes pending. -/
theorem settled_pendMaintenance {s : State} (hs : Settled s) {k : SlotNo}
    (busy : isStartingOrCoasting (s.slot k).st = true) : Settled (pendMaintenance s) where
  modeByList := hs.modeByList
  claimStands := hs.claimStands
  noClaimDue := by
    cases h : claimTest (pendMaintenance s) with
    | none => rfl
    | some p =>
      obtain ⟨-, -, -, -, -, pending, -⟩ := claimTest_some h
      cases pending
  noEntryDue := maintReady_of_busy (s := pendMaintenance s) busy

/-- With a slot STARTING or COASTING the entry waits. -/
theorem maintAsserted_waits {s : State} (hs : Settled s) (t : Time) {k : SlotNo}
    (busy : isStartingOrCoasting (s.slot k).st = true) : closeEvent s (asserted t s) = asserted t s := by
  have same : closeEvent s (asserted t s) = closeEvent (pendMaintenance s) (asserted t s) := rfl
  rw [same]
  exact closeEvent_inert (settled_pendMaintenance hs busy)
    ⟨rfl, rfl, rfl, rfl, rfl, rfl, rfl, id, id, rfl, rfl, rfl⟩

/-! ## The drop (O13) -/

/-- A slot as the drop of a pending entry leaves it (R83). -/
def droppedSlot (sl : Slot) : Slot :=
  match sl.st, sl.target with
  | .stopped, .run d => { sl with st := .startWait d }
  | _, _ => sl

theorem droppedSlot_eq (sl : Slot) : droppedSlot sl = { sl with
    st := (match sl.st, sl.target with
      | .stopped, .run d => .startWait d
      | st, _ => st) } := by
  obtain ⟨st, target, _, _, _, _, _⟩ := sl
  cases st with
  | stopped => cases target <;> rfl
  | _ => rfl

theorem unpended_eq (now : Time) (sl : Slot) : unpended now sl = droppedSlot sl := by
  obtain ⟨st, target, _, _, _, _, _⟩ := sl
  cases st with
  | stopped => cases target <;> rfl
  | _ => rfl

theorem droppedSlot_usable (sl : Slot) : isUsable (droppedSlot sl).st = isUsable sl.st := by
  unfold droppedSlot
  split
  · rename_i h _
    rw [h]
    rfl
  · rfl

/-- The state the drop leaves. -/
def dropped (t : Time) (s : State) : State :=
  { s with
    now := max s.now t
    su := s.su.setInput .maint ⟨false, false, none⟩
    fs := { s.fs with
      maintPending := false
      slots := s.fs.slots.map droppedSlot } }

theorem dropped_slot (t : Time) (s : State) (k : SlotNo) :
    (dropped t s).slot k = droppedSlot (s.slot k) := Quad.get_map _ _ _

theorem maintDropped_next {s : State} {t : Time} (due : s.su.maint.due = some t) (pin : s.su.maint.pin = false)
    (mode : s.sj.mode = .quiet ∨ s.sj.mode = .incident) (pending : s.fs.maintPending = true) :
    exec (.debounceExpiry .maint) s = .next (closeEvent s (dropped t s)) := by
  rw [maintDebounce_next due pin]
  have drops : dropMaintPending (maintTaken false t s) = dropped t s := by
    have slots : s.fs.slots.map (unpended (max s.now t)) = s.fs.slots.map droppedSlot :=
      Quad.ext_get fun k => by rw [Quad.get_map, Quad.get_map, unpended_eq]
    unfold dropped
    rw [← slots]
    rfl
  have reported : maintReported false (maintTaken false t s) = dropMaintPending (maintTaken false t s) := by
    unfold maintReported
    have same : (maintTaken false t s).sj.mode = s.sj.mode := rfl
    have waits : (maintTaken false t s).fs.maintPending = true := pending
    rcases mode with h | h
    · rw [same, h]
      exact if_pos waits
    · rw [same, h]
      exact if_pos waits
  rw [reported, drops]

/-- Nothing is recomputed where a pending entry is dropped. -/
theorem dropped_closes {s : State} (hs : Settled s) (t : Time) :
    PlanRest (dropped t s) (closeEvent s (dropped t s)) := by
  have rest := closeEvent_waits (b := s) (x := dropped t s)
    (maintReady_of_not_pending (by rw [beforeEntry_entry]; rfl))
  have mode : ModeByList (dropped t s) := hs.modeByList
  rwa [beforePlan_self (s := s) mode (governing_congr rfl rfl),
    recomputeIfDue_same (s := s) (x := dropped t s) rfl rfl rfl rfl
      (fun k => by rw [dropped_slot, droppedSlot_usable])] at rest

/-- Settles O13: an entry is made where R83 lets it, waits for a slot that starts or coasts, and is dropped at MAINT's
release. -/
theorem maintenanceEntryTakesTheSlots : Obligations.MaintenanceEntryTakesTheSlots := by
  refine ⟨fun s pending mode idle => ?_, fun s t hs due pin mode => ⟨fun idle => ?_, fun k busy => ?_⟩,
    fun s t due pin mode pending => ?_⟩
  · obtain ⟨u, next, sj, entry, su, pt, records, slots⟩ :=
      maintenanceEntry_taken ((maintReady_iff s).2 ⟨pending, mode, idle⟩)
    refine ⟨u, next, sj, entry, su, pt, records, fun k => ?_⟩
    have st := (slots k).intoLocal_st
    obtain ⟨faults, inputs⟩ := intoLocal_rest (s.slot k)
    refine ⟨st.trans (intoLocal_st _), driveOut_of_none (by rw [st, intoLocal_drive]),
      (slots k).faults.trans faults, fun i => ?_⟩
    rw [← inputs i]
    cases i
    · exact (slots k).runFb
    · exact (slots k).tripFb
    · exact (slots k).dirFb
  · obtain ⟨entered, entry, slots⟩ := closeEvent_enters (maintAsserted_enters hs t mode idle)
    have sj := (closes_closeEvent s (asserted t s)).sj
    rw [entered] at sj
    exact ⟨_, maintAsserted_next due pin mode, sj, entry, fun k =>
      driveOut_of_none (by rw [slots, intoLocal_drive])⟩
  · rw [maintAsserted_next due pin mode, maintAsserted_waits hs t busy]
    rfl
  · refine ⟨_, maintDropped_next due pin mode pending, closeEvent_pending rfl, closes_closeEvent s (dropped t s),
      fun hs => ?_⟩
    have rest := dropped_closes hs t
    refine ⟨rest.sj, rest.tp, by rw [rest.fs]; rfl, fun k => ?_⟩
    exact (rest.slot k).trans ((dropped_slot t s k).trans (droppedSlot_eq _))

/-! ## The exit (O14) -/

/-- The state the exit itself leaves at the moment `t` (R86). -/
def exited (t : Time) (s : State) : State := exitMaintenance (maintTaken false t s)

theorem maintReleased_next {s : State} {t : Time} (due : s.su.maint.due = some t) (pin : s.su.maint.pin = false)
    (mode : s.sj.mode = .maintenance) :
    exec (.debounceExpiry .maint) s = .next (closeEvent s (exited t s)) := by
  rw [maintDebounce_next due pin]
  have reported : maintReported false (maintTaken false t s) = exited t s := by
    unfold maintReported
    rw [show (maintTaken false t s).sj.mode = .maintenance from mode]
    rfl
  rw [reported]

theorem exited_mode (t : Time) (s : State) :
    (exited t s).sj = { s.sj with mode := if anyActive s then .incident else .quiet } := rfl

theorem exited_modeByList (t : Time) (s : State) : ModeByList (exited t s) := by
  have active : anyActive (exited t s) = anyActive s := rfl
  unfold ModeByList
  rw [exited_mode, active]
  cases anyActive s <;> simp

theorem exited_slot (t : Time) (s : State) (k : SlotNo) : (exited t s).slot k =
    outOfLocal ⟨max s.now t, s.fs.maintPending⟩ (s.slot k) := exitMaintenance_slot _ k

theorem exited_not_fault (t : Time) (s : State) : (exited t s).sj.mode ≠ .configFault := listMode_ne_fault s

/-- The return from MAINTENANCE calls for a recompute (R56), and nothing follows it that touches a slot. -/
theorem exited_closes {s : State} (t : Time) (mode : s.sj.mode = .maintenance)
    (pending : s.fs.maintPending = false) :
    PlanRest (recompute (exited t s)) (closeEvent s (exited t s)) := by
  have rest := closeEvent_waits (b := s) (x := exited t s)
    (maintReady_of_not_pending (by rw [beforeEntry_entry]; exact pending))
  have plan : beforePlan s (exited t s) = exited t s :=
    beforePlan_self (exited_modeByList t s) (governing_congr rfl rfl)
  have calls : CallsRecompute s (exited t s) := calls_of_change (.inl (by
    rw [exited_mode, mode]
    dsimp only
    split <;> simp))
  rwa [plan, recomputeIfDue_calls (exited_not_fault t s) calls] at rest

/-- A slot after the exit: its own, as the plan of the event targets it (R64, R86). -/
theorem exited_handed {s : State} (t : Time) (mode : s.sj.mode = .maintenance)
    (pending : s.fs.maintPending = false) (k : SlotNo) :
    (closeEvent s (exited t s)).slot k = handTarget ⟨max s.now t, false⟩
      ((closeEvent s (exited t s)).tp.targets.get k) (outOfLocal ⟨max s.now t, false⟩ (s.slot k)) := by
  have rest := exited_closes t mode pending
  rw [rest.slot, rest.tp, recompute_slot, exited_slot, pending]
  rw [show (exited t s).slotCtx = ⟨max s.now t, s.fs.maintPending⟩ from rfl, pending]

/-- The exit clears the fault count of a fitted slot, and leaves none LOCKED_OUT (R86). -/
theorem outOfLocal_clears (x : SlotCtx) (sl : Slot) :
    (sl.st ≠ .absent → (outOfLocal x sl).faults = 0) ∧ ∀ c, (outOfLocal x sl).st ≠ .lockedOut c := by
  unfold outOfLocal
  split
  · split
    · exact ⟨fun _ => rfl, fun c h => by cases h⟩
    · split <;> exact ⟨fun _ => rfl, fun c h => by cases h⟩
  · split <;> exact ⟨fun _ => rfl, fun c h => by cases h⟩
  · rename_i h
    exact ⟨fun g => absurd h g, fun c g => by rw [h] at g; cases g⟩
  all_goals
    rename_i h
    exact ⟨fun _ => rfl, fun c g => by rw [h] at g; cases g⟩

theorem outOfLocal_tripped (x : SlotCtx) {sl : Slot}
    (h : sl.st = .localControl ∨ ∃ c, sl.st = .lockedOut c) (trip : sl.tripFb.level = true) :
    (outOfLocal x sl).st = .tripped (some (x.now + 120000000)) := by
  unfold outOfLocal
  rcases h with h | ⟨c, h⟩
  · rw [h]
    simp only [trip, if_true]
    rfl
  · rw [h]
    simp only [trip, if_true]
    rfl

theorem outOfLocal_coasts (x : SlotCtx) {sl : Slot}
    (h : sl.st = .localControl ∨ ∃ c, sl.st = .lockedOut c) (trip : sl.tripFb.level = false)
    (run : sl.runFb.level = false ∨ sl.st ≠ .localControl) :
    (outOfLocal x sl).st = .coasting (x.now + 45000000) := by
  unfold outOfLocal
  rcases h with h | ⟨c, h⟩
  · rcases run with run | run
    · rw [h]
      simp only [trip, run, Bool.false_eq_true, if_false]
      rfl
    · exact absurd h run
  · rw [h]
    simp only [trip, Bool.false_eq_true, if_false]
    rfl

theorem outOfLocal_runs (x : SlotCtx) {sl : Slot} (h : sl.st = .localControl) (trip : sl.tripFb.level = false)
    (run : sl.runFb.level = true) :
    (outOfLocal x sl).st = .running (if sl.dirFb.level then .towardB else .towardA) := by
  unfold outOfLocal
  rw [h]
  simp only [trip, run, Bool.false_eq_true, if_false, if_true]

/-- Settles O14: the exit takes each slot back, and the plan made at the same event targets it. -/
theorem maintenanceExitTakesUpTheSlots : Obligations.MaintenanceExitTakesUpTheSlots := by
  intro s t due pin mode pending
  have sj : (closeEvent s (exited t s)).sj = { s.sj with mode := if anyActive s then .incident else .quiet } := by
    rw [closeEvent_sj s (s := exited t s) pending, followList_settled (exited_modeByList t s)]
    rfl
  have handed := exited_handed t mode pending
  have closes (k : SlotNo) := (closes_closeEvent s (exited t s)).slots k
  have st (k : SlotNo) := handTarget_st ⟨max s.now t, false⟩ ((closeEvent s (exited t s)).tp.targets.get k)
    (outOfLocal ⟨max s.now t, false⟩ (s.slot k))
  have faults (k : SlotNo) (h : (s.slot k).st ≠ .absent) : ((closeEvent s (exited t s)).slot k).faults = 0 := by
    rw [(closes k).faults, exited_slot]
    exact (outOfLocal_clears _ _).1 h
  refine ⟨_, maintReleased_next due pin mode, sj, fun k h => ?_, faults, fun k c h => ?_, fun k h =>
    ⟨faults k ?_, fun trip => ?_, fun trip run => ?_, fun trip run hl => ?_⟩⟩
  · have out : outOfLocal ⟨max s.now t, false⟩ (s.slot k) = s.slot k := by unfold outOfLocal; rw [h]
    rw [handed, out]
    unfold handTarget
    rw [h]
  · have := ((closes k).locked c).1 h
    rw [exited_slot] at this
    exact (outOfLocal_clears _ _).2 c this
  · rcases h with h | ⟨c, h⟩ <;> rw [h] <;> simp
  · rw [handed, st, outOfLocal_tripped _ h trip]
    rfl
  · rw [handed, st, outOfLocal_coasts _ h trip run]
    rfl
  · have out := outOfLocal_runs ⟨max s.now t, false⟩ hl trip run
    refine ⟨?_, ?_⟩
    · rw [handed]
      exact handTarget_target _ _ _ (by rw [out]; simp)
    · rw [handed, st, out]
      exact runningWith_eq _ _ _

end Sys2Proof.Machine
end

section
/-! PROOFS. The outputs follow the state (O45): each pin read off the state, and the slot fault outputs through every
command. -/

namespace Sys2Proof.Machine

/-! ## The pins -/

theorem pinsOf_drive (s : State) (k : SlotNo) : (pinsOf s).drive.get k = driveOut s k := Quad.get_mapNo _ _ _

theorem pinsOf_slotFault (s : State) (k : SlotNo) : (pinsOf s).slotFault.get k = (s.no.flash.get k).lit :=
  Quad.get_map _ _ _

theorem driveOf_some {st : SlotState} {d : Direction} :
    driveOf st = some d ↔ st = .running d ∨ ∃ due, st = .starting d due := by
  cases st <;> simp [driveOf]

theorem driveOut_some {s : State} (held : s.sj.held = false) (k : SlotNo) (d : Direction) :
    driveOut s k = some d ↔ (s.slot k).st = .running d ∨ ∃ due, (s.slot k).st = .starting d due := by
  unfold driveOut
  rw [held]
  exact driveOf_some

theorem signFor_signA {p : Nat} {c : Content} : signFor p c = .signA ↔
    p < c.lo ∨ (c.lo ≤ p ∧ p ≤ c.hi ∧ c.dir = .towardB) := by
  unfold signFor
  by_cases below : p < c.lo
  · simp [below]
  · by_cases above : c.hi < p
    · simp only [below, above, if_true, if_false, false_or]
      exact ⟨fun h => (by cases h), fun ⟨_, h, _⟩ => absurd above (by omega)⟩
    · have inside : c.lo ≤ p ∧ p ≤ c.hi := by omega
      cases h : c.dir <;> simp [below, above, inside.1, inside.2]

theorem signLit_dark {s : State} (h : s.sj.mode = .configFault ∨ governing s = none) : signLit s = none := by
  unfold signLit
  rcases h with h | h
  · simp [h]
  · simp [h]

theorem smokeLit_dark {s : State} (h : s.sj.mode = .configFault ∨ governing s = none) : smokeLit s = false := by
  unfold smokeLit
  rcases h with h | h
  · simp [h]
  · simp [h]

section Governed

variable {s : State} {g : Governing} (held : s.sj.held = false) (hg : governing s = some g)
  (hm : s.sj.mode ≠ .configFault)
include held hg hm

theorem signLit_governed : signLit s = some (signFor s.station g.content) := by
  unfold signLit
  rw [hg]
  simp [held, hm]

theorem smokeLit_governed : smokeLit s = true ↔
    downstream g.content s.station = true ∨ ∃ v, s.su.opacity.value = some v ∧ 50 ≤ v := by
  unfold smokeLit
  rw [hg, if_neg (by simp [held, hm])]
  cases s.su.opacity.value <;> simp

end Governed

theorem lockoutPresent_iff (s : State) : lockoutPresent s = true ↔ ∃ k c, (s.slot k).st = .lockedOut c := by
  have locked (st : SlotState) : isLockedOut st = true ↔ ∃ c, st = .lockedOut c := by
    cases st <;> simp [isLockedOut]
  unfold lockoutPresent
  simp only [Bool.or_eq_true, locked]
  constructor
  · rintro (((h | h) | h) | h)
    exacts [⟨.fs1, h⟩, ⟨.fs2, h⟩, ⟨.fs3, h⟩, ⟨.fs4, h⟩]
  · rintro ⟨k, h⟩
    cases k
    exacts [.inl (.inl (.inl h)), .inl (.inl (.inr h)), .inl (.inr h), .inr h]

/-- The health octet is 0 only where every bit of it is (R145). -/
theorem healthBits_zero : ∀ a b c d e f g h : Bool, (BitVec.ofNat 8
    ((if a then 128 else 0) + (if b then 64 else 0) + (if c then 32 else 0) + (if d then 16 else 0) +
      (if e then 8 else 0) + (if f then 4 else 0) + (if g then 2 else 0) + (if h then 1 else 0)) != 0#8) =
    (a || b || c || d || e || f || g || h) := by decide +kernel

theorem healthOctet_ne_zero (s : State) : (healthOctet s != 0#8) = true ↔
    (∃ f, s.health.get f ≠ none) ∨ ∃ k c, (s.slot k).st = .lockedOut c := by
  have flags : (∃ f, s.health.get f ≠ none) ↔ s.health.rxOverrun.isSome = true ∨
      s.health.lineErrors.isSome = true ∨ s.health.txCongested.isSome = true ∨
      s.health.sensorInvalid.isSome = true ∨ s.health.directionConflict.isSome = true ∨
      s.health.incidentOverflow.isSome = true ∨ s.health.duplicateIndex.isSome = true := by
    simp only [← Option.isSome_iff_ne_none]
    constructor
    · rintro ⟨f, h⟩
      cases f <;> simp only [Health.get] at h <;> simp [h]
    · rintro (h | h | h | h | h | h | h)
      exacts [⟨.rxOverrun, h⟩, ⟨.lineErrors, h⟩, ⟨.txCongested, h⟩, ⟨.sensorInvalid, h⟩,
        ⟨.directionConflict, h⟩, ⟨.incidentOverflow, h⟩, ⟨.duplicateIndex, h⟩]
  unfold healthOctet
  rw [healthBits_zero, flags, ← lockoutPresent_iff]
  simp only [Bool.or_eq_true, or_assoc]

theorem healthOut_iff {s : State} (held : s.sj.held = false) : healthOut s = true ↔
    s.sj.mode = .configFault ∨ (∃ f, s.health.get f ≠ none) ∨ ∃ k c, (s.slot k).st = .lockedOut c := by
  unfold healthOut
  rw [Bool.and_eq_true, Bool.or_eq_true, healthOctet_ne_zero, held]
  simp

/-! ## The line and the sensor link -/

/-- A character's ten bits as sent: start bit 0, eight data bits with the lowest first, stop bit 1 (R149). -/
theorem characterBits_bit (o : Octet) {m : Nat} (h : m < 10) : (characterBits o).getLsbD m =
    (if m = 0 then false else if m = 9 then true else o.getLsbD (m - 1)) := by
  unfold characterBits
  rw [BitVec.getLsbD_append, BitVec.getLsbD_append]
  interval_cases m <;> simp

theorem txd_sending {s : State} {x : Sending} (h : s.li.sending = some x) (o : Octet)
    (hx : (frameOctets s.station x.frame.body)[(s.now - x.since) / s.bit / 10]? = some o) :
    txd s = (if (s.now - x.since) / s.bit % 10 = 0 then false
      else if (s.now - x.since) / s.bit % 10 = 9 then true
      else o.getLsbD ((s.now - x.since) / s.bit % 10 - 1)) := by
  rw [← characterBits_bit o (Nat.mod_lt _ (by decide))]
  unfold txd
  rw [h]
  dsimp only
  rw [hx]

/-- The first half of one of 24 periods of 10 µs, of which the last ends at `ends`. -/
theorem clock_pulses (ends now : Nat) :
    (now < ends ∧ ends - 240 + 10 * 0 ≤ now ∧ (now - (ends - 240 + 10 * 0)) % 10 < 5) ↔
      now < ends ∧ ∃ n, n < 24 ∧ ends - 240 + 10 * n ≤ now ∧ now < ends - 240 + 10 * n + 5 := by
  constructor
  · rintro ⟨running, begun, low⟩
    exact ⟨running, (now - (ends - 240)) / 10, by omega, by omega, by omega⟩
  · rintro ⟨running, n, small, rise, fall⟩
    exact ⟨running, by omega, by omega⟩

/-- SNS_CLK is high for 5 µs from each of the 24 rising edges (R123, log 33). -/
theorem sensorClock_pulses {s : State} {x : Transaction} (h : s.su.transaction = some x) :
    sensorClock s = true ↔ s.now < x.ends ∧
      ∃ n, n < 24 ∧ x.risingEdge n ≤ s.now ∧ s.now < x.risingEdge n + 5 := by
  rw [sensorClock_iff h]
  exact clock_pulses x.ends s.now

/-- The sample of an empty queue is what SNS_DI shows at the rising edges (R123, log 39). -/
theorem sampledOctet_bit (line : Time → Bool) (x : Transaction) (m : Nat) {n : Nat} (h : n < 8) :
    (sampledOctet line x m).getLsbD (7 - n) = line (x.risingEdge (8 * m + n)) := octetOfBits_bit _ h

/-! ## The slot fault outputs (R163) -/

/-- A fault output shows a pattern: steadily, dark, or with its phase timer running. -/
def ShowsPattern (p : Pattern) (f : Flash) : Prop :=
  match p with
  | .steady => f = ⟨true, none⟩
  | .dark => f = ⟨false, none⟩
  | .slow | .fast | .blip => f.due.isSome = true

theorem flashShows_iff (s : State) : FlashShows s ↔
    (s.sj.held = false → ∀ k, ShowsPattern (patternOf (s.slot k).st) (s.no.flash.get k)) := by
  unfold FlashShows ShowsPattern
  exact Iff.rfl

theorem flashBegin_shows (now : Time) (p : Pattern) : ShowsPattern p (flashBegin now p) := by
  cases p <;> rfl

theorem flashFor_shows {now : Time} {a b : Slot} {f : Flash} (h : ShowsPattern (patternOf a.st) f) :
    ShowsPattern (patternOf b.st) (flashFor now a b f) := by
  unfold flashFor
  split
  · rename_i e
    rw [← e]
    exact h
  · exact flashBegin_shows _ _

/-- A phase that ends is one of a pattern that flashes, which runs on (R163). -/
theorem flashToggle_shows {now t : Time} {p : Pattern} {f : Flash} (h : ShowsPattern p f) (due : f.due = some t) :
    ShowsPattern p (flashToggle now p f) := by
  cases p with
  | steady => rw [h] at due; cases due
  | dark => rw [h] at due; cases due
  | slow => rfl
  | fast => rfl
  | blip =>
    change ((if (!f.lit) = true then some (100 * ms) else some (1900 * ms)).map (now + ·)).isSome = true
    split <;> rfl

/-- How a pattern that a slot's state comes to call for begins (R163). -/
theorem flashBegin_eq (now : Time) (st : SlotState) : flashBegin now (patternOf st) =
    (match st with
      | .lockedOut .startFail => ⟨true, none⟩
      | .lockedOut .trip => ⟨true, some (now + 500000)⟩
      | .lockedOut .stuck => ⟨true, some (now + 125000)⟩
      | .tripped _ => ⟨true, some (now + 100000)⟩
      | .stopped | .startWait _ | .starting _ _ | .running _ | .coasting _ | .localControl
      | .absent => ⟨false, none⟩) := by
  cases st with
  | lockedOut c => cases c <;> rfl
  | _ => rfl

/-! ## The fault outputs through what follows an event -/

theorem setPace_no (p : Pace) (g : Governing) (s : State) : (setPace p g s).no = s.no := by
  unfold setPace enterPace
  split
  · split
    · rfl
    · dsimp only
      split <;> rfl
  all_goals rfl

theorem recompute_no (s : State) : (recompute s).no = s.no := by
  unfold recompute
  split
  · rfl
  · exact setPace_no _ _ _

theorem recomputeIfDue_no (b s : State) : (recomputeIfDue b s).no = s.no := by
  unfold recomputeIfDue
  split
  · rfl
  · split
    · rfl
    · exact recompute_no s

theorem governingChanged_no (b s : State) : (governingChanged b s).no = s.no := by
  unfold governingChanged
  split
  · split
    · split <;> rfl
    · rfl
  all_goals rfl

theorem followList_no (s : State) : (followList s).no = s.no := by
  unfold followList
  split <;> rfl

theorem planned_no (b s : State) : (planned b s).no = s.no :=
  (lineRest_followSlot _).no.trans (recomputeIfDue_no b s)

theorem beforeClaim_no (b x : State) : (beforeClaim b x).no = x.no := by
  have entry : (beforeEntry b x).no = x.no :=
    (planned_no _ _).trans ((governingChanged_no _ _).trans (followList_no x))
  unfold beforeClaim enterIfReady
  split
  · exact (planned_no _ _).trans entry
  · exact entry

/-- A fault output after what follows an event: its pattern begun anew where the slot's state has come to call for
another one (R163). -/
theorem follow_flash (b x : State) (k : SlotNo) : (follow b x).no.flash.get k =
    flashFor (follow b x).now (b.slot k) ((follow b x).slot k) (x.no.flash.get k) := by
  have flash : (testClaim (beforeClaim b x)).no = x.no := (lineRest_testClaim _).no.trans (beforeClaim_no b x)
  rw [← flash]
  exact Quad.get_mapNo _ _ _

theorem closeEvent_flash (b x : State) (k : SlotNo) : (closeEvent b x).no.flash.get k =
    flashFor (closeEvent b x).now (b.slot k) ((closeEvent b x).slot k) (x.no.flash.get k) := by
  have rest := planRest_closeEvent b x
  have flash : (closeEvent b x).no.flash = (follow b x).no.flash := (fansRest_requestEarly b _).flash
  rw [flash, rest.now, rest.slot]
  exact follow_flash b x k

/-! ## The fault outputs through every command -/

/-- What follows an event changes a pattern only by taking the slot into LOCAL (R84). -/
theorem SlotCloses.pattern {now : Time} {a b : Slot} (c : SlotCloses now a b) :
    patternOf b.st = patternOf a.st ∨ b.st = .localControl := by
  cases ha : a.st with
  | stopped =>
    rcases c.resting (.inl ha) with h | h | h
    · exact .inl (by rw [h])
    · left
      cases hb : b.st <;> simp_all [isStartWait, patternOf]
    · exact .inr h
  | startWait d =>
    rcases c.resting (.inr (by rw [ha]; rfl)) with h | h | h
    · exact .inl (by rw [h]; rfl)
    · left
      cases hb : b.st <;> simp_all [isStartWait, patternOf]
    · exact .inr h
  | starting d t => exact .inl (by rw [c.starting (by rw [ha]; rfl), ha])
  | running d => rcases c.running d ha with h | h | h <;> simp [h, patternOf]
  | coasting t => exact .inl (by rw [c.coasting t ha])
  | tripped t => rcases c.tripped t ha with h | h <;> simp [h]
  | lockedOut x => exact .inl (by rw [(c.locked x).2 ha])
  | localControl => exact .inr (c.isLocal ha)
  | absent => exact .inl (by rw [c.absent.2 ha])

/-- Two closings in a row, of which the first can take a slot only into LOCAL, are one for its fault output. -/
theorem flashFor_twice {now n m : Time} {a b c : Slot} {f : Flash} (h : SlotCloses n a b) (g : SlotCloses m b c) :
    flashFor now b c (flashFor now a b f) = flashFor now a c f := by
  rcases h.pattern with e | e
  · unfold flashFor
    rw [e, if_pos rfl]
  · have stays : c.st = b.st := (g.isLocal e).trans e.symm
    unfold flashFor
    rw [stays, if_pos rfl]

theorem placeEarly_now (s : State) : (placeEarly s).now = s.now := (closes_placeEarly s).now

theorem placeEarly_flash (s : State) : (placeEarly s).no.flash = s.no.flash := by
  unfold placeEarly
  dsimp only
  split <;> exact (fansRest_placeStatus s).flash

/-- The end of JOINING (R170) for a fault output. -/
theorem join_flash (t : Time) (s : State) (k : SlotNo) :
    let u := closeEvent (joined t s) (maintAtJoin (joined t s))
    u.no.flash.get k = flashFor u.now (s.slot k) (u.slot k) (s.no.flash.get k) := by
  intro u
  obtain ⟨slots, flash, -, now, -⟩ := leaveJoining_fans (reachTime t s)
  obtain ⟨atNow, -, -, -, atSlots, -⟩ := maintAtJoin_rest (joined t s)
  have first := (closes_follow s (leaveJoining (reachTime t s))).slots k
  have second := (closes_closeEvent (joined t s) (maintAtJoin (joined t s))).slots k
  have start : (leaveJoining (reachTime t s)).slot k = s.slot k := slot_congr slots k
  have joinedSlot : (joined t s).slot k = (follow s (leaveJoining (reachTime t s))).slot k :=
    slot_of_fs (placeEarly_fs _) k
  have joinedFlash : (joined t s).no.flash.get k =
      flashFor (joined t s).now (s.slot k) ((joined t s).slot k) (s.no.flash.get k) := by
    rw [joinedSlot, show (joined t s).now = _ from placeEarly_now _,
      show (joined t s).no.flash = _ from placeEarly_flash _, follow_flash, flash]
    rfl
  have maint : (maintAtJoin (joined t s)).no = (joined t s).no := by
    unfold maintAtJoin
    split <;> rfl
  have nowU : u.now = (joined t s).now := (closes_closeEvent _ _).now.trans atNow
  have closing := closeEvent_flash (joined t s) (maintAtJoin (joined t s)) k
  rw [start, ← joinedSlot] at first
  rw [slot_congr atSlots] at second
  rw [maint, joinedFlash] at closing
  rw [show (closeEvent (joined t s) (maintAtJoin (joined t s))).now = (joined t s).now from nowU,
    flashFor_twice first second] at closing
  rw [nowU]
  exact closing

/-- No own effect but the phase timer's touches a fault output. -/
theorem OwnMoves.flash {i : Instr} {s x : State} (moves : OwnMoves i s x) (k : SlotNo)
    (h : i ≠ .slotFltPhase k) : x.no.flash.get k = s.no.flash.get k := by
  cases moves with
  | steps _ _ _ g => rw [g.flash]
  | phase j =>
    have ne : k ≠ j := fun e => h (by rw [e])
    exact Quad.get_set_ne _ _ ne
  | settle c t =>
    rcases settle_cases c (reachTime t s) with ⟨d, -, -, e⟩ | ⟨-, e⟩
    · rw [e]; rfl
    · rw [e, (lineRest_withdrawClaim c _).no]; rfl
  | exit v t => rfl

/-- What every command but the resets does to a fault output. -/
theorem answers_flash {i : Instr} {s u : State} (a : Answers i s u) (hi : isReset i = false) (k : SlotNo)
    (h : i ≠ .slotFltPhase k) :
    u.no.flash.get k = flashFor u.now (s.slot k) (u.slot k) (s.no.flash.get k) := by
  have same {u : State} (e : (u.slot k).st = (s.slot k).st) (f : u.no.flash = s.no.flash) :
      u.no.flash.get k = flashFor u.now (s.slot k) (u.slot k) (s.no.flash.get k) := by
    unfold flashFor
    rw [f, e, if_pos rfl]
  cases a with
  | powerOn => cases hi
  | external => cases hi
  | release => cases hi
  | level => exact same rfl rfl
  | pin j n v p => exact same (setSlot_setInput_st j k n p s) rfl
  | idle => exact same rfl rfl
  | join t => exact join_flash t s k
  | event _ _ x plain join own =>
    rw [closeEvent_flash, (effect_moves own).flash k h]

/-- The phase timer's own effect shows the pattern the slot's state called for, as every other does. -/
theorem OwnMoves.shows {i : Instr} {s x : State} (moves : OwnMoves i s x) (k : SlotNo)
    (h : ShowsPattern (patternOf (s.slot k).st) (s.no.flash.get k)) :
    ShowsPattern (patternOf (s.slot k).st) (x.no.flash.get k) := by
  by_cases phase : i = .slotFltPhase k
  · subst phase
    cases moves with
    | steps _ _ _ g => rw [g.flash]; exact h
    | phase _ _ t due =>
      have toggled := flashToggle_shows (now := max s.now t) h due
      rwa [← Quad.get_set_same s.no.flash k (flashToggle (max s.now t) (patternOf (s.slot k).st)
        (s.no.flash.get k))] at toggled
  · rw [moves.flash k phase]
    exact h

/-- Every command keeps the fault outputs showing their slots' states. -/
theorem flashShows_answers {i : Instr} {s u : State} (f : FlashShows s) (a : Answers i s u) : FlashShows u := by
  rw [flashShows_iff] at f ⊢
  intro held k
  cases a with
  | powerOn => cases held
  | external => cases held
  | release w =>
    rw [releaseReset_flash]
    exact flashBegin_shows _ _
  | level => exact f held k
  | pin j n v p =>
    rw [setSlot_setInput_st]
    exact f held k
  | idle => exact f held k
  | join t _ due =>
    rw [join_held due] at held
    rw [join_flash]
    exact flashFor_shows (f held k)
  | event _ _ x plain join own =>
    rw [closes_held s own] at held
    rw [closeEvent_flash]
    exact flashFor_shows ((effect_moves own).shows k (f held k))

/-! ## O45 -/

/-- Settles O45: each output is read off the state, and the fault outputs follow their slots through every command. -/
theorem outputsFollowTheState : Obligations.OutputsFollowTheState := by
  refine ⟨fun s held => ⟨fun k d => ?_, fun m => ⟨signLit_dark (.inl m), smokeLit_dark (.inl m)⟩,
      fun hg => ⟨signLit_dark (.inr hg), smokeLit_dark (.inr hg)⟩, fun g hg hm => ⟨?_, ?_, ?_⟩, ?_,
      healthOut_iff held, Option.isSome_iff_ne_none, Option.isSome_iff_ne_none, conflictOut_iff s,
      pinsOf_slotFault s, fun shows k => ⟨fun h => ?_, fun unlocked untripped => ?_⟩, fun idle => ⟨?_, ?_⟩,
      fun x sending => ⟨?_, txd_sending sending⟩, fun idle => ⟨?_, ?_⟩,
      fun x running => ⟨selectOut_of_transaction running, sensorClock_pulses running, _, _, _,
        sample_mem_allDues running, fun n h => ⟨?_, ?_, ?_⟩⟩⟩,
    ?_, fun s u shows hr h => ?_, fun i s u k h reset phase => ?_⟩
  · rw [pinsOf_drive]
    exact driveOut_some held k d
  · change signLit s = _ ↔ _
    rw [signLit_governed held hg hm, Option.some.injEq]
    exact signFor_signA
  · change signLit s ≠ _
    rw [signLit_governed held hg hm]
    simp
  · exact smokeLit_governed held hg hm
  · change incidentOut s = true ↔ _
    unfold incidentOut
    simp [held]
  · have steady := (flashShows_iff s).1 shows held k
    rw [pinsOf_slotFault]
    rw [h] at steady
    rw [steady]
  · have dark := (flashShows_iff s).1 shows held k
    have pattern : patternOf (s.slot k).st = .dark := by
      cases h : (s.slot k).st with
      | lockedOut c => exact absurd h (unlocked c)
      | tripped t => exact absurd h (untripped t)
      | _ => rfl
    rw [pinsOf_slotFault]
    rw [pattern] at dark
    rw [dark]
  · change txen s = false
    unfold txen
    rw [idle]
    rfl
  · change txd s = true
    unfold txd
    rw [idle]
  · change txen s = true
    unfold txen
    rw [sending]
    rfl
  · change selectOut s = none
    unfold selectOut
    rw [idle]
  · change sensorClock s = false
    unfold sensorClock
    rw [idle]
  · exact (sampledOctet_bit _ x 0 h).trans (by rw [Nat.mul_zero, Nat.zero_add]; rfl)
  · exact sampledOctet_bit _ x 1 h
  · exact sampledOctet_bit _ x 2 h
  · rw [flashShows_iff]
    intro held
    cases held
  · exact step_keeps (P := FlashShows) (fun _ _ h => h) (fun _ h => h)
      (fun _ _ _ h a => flashShows_answers h a) shows h
  · have flash := answers_flash (exec_answers h) reset k phase
    unfold flashFor at flash
    rw [flashBegin_eq] at flash
    exact flash

end Sys2Proof.Machine
end

section
/-! PROOFS. The settle timer grants or withdraws, and a claim is withdrawn at the event at which its slot leaves
START_WAIT (O41). -/

namespace Sys2Proof.Machine

/-! ## A claim that is withdrawn -/

/-- The claim test of an event finds `z`, the own claim `c` of `s` withdrawn at that event (R97, R101). -/
structure Withdrawn (c : Claim) (s z : State) : Prop where
  own : z.cu.own = .none
  counter : z.cu.counter = s.cu.counter
  spacing : z.cu.spacingDue = s.cu.spacingDue
  heard : z.cu.view.map heardOf = s.cu.view.map heardOf
  early : ∀ e ∈ z.cu.view, e.late = false
  queue : ∃ w : State, w.sj.mode ≠ .configFault ∧ w.li.tx = s.li.tx ∧
    z.li.tx = (place (.withdraw s.sect c.slot c.number) w).li.tx

theorem allEarly_early (s : State) : ∀ e ∈ (allEarly s).cu.view, e.late = false := by
  intro e he
  obtain ⟨x, -, rfl⟩ := List.mem_map.1 he
  rfl

/-- The Claim Unit and the line as `s` left them. -/
structure ClaimKept (s v : State) : Prop where
  cu : v.cu = s.cu
  tx : v.li.tx = s.li.tx
  sect : v.sect = s.sect

/-- A SETTLING claim whose slot has left START_WAIT is withdrawn (R101). -/
theorem withdrawn_followSlot {s v : State} {c : Claim} {due : Option Time} (kept : ClaimKept s v)
    (ho : s.cu.own = .settling c due) (left : isStartWait (v.slot c.slot).st = false)
    (hm : v.sj.mode ≠ .configFault) : Withdrawn c s (followSlot v) := by
  have follows : followSlot v = withdrawClaim c v := by
    unfold followSlot
    rw [kept.cu, ho]
    exact if_neg (by rw [left]; simp)
  have cu : (withdrawClaim c v).cu = (setOwn .none (allEarly v)).cu := place_cu_eq _ _ rfl
  rw [follows]
  refine ⟨by rw [cu]; rfl, ?_, ?_, ?_, ?_, setOwn .none (allEarly v), hm, kept.tx, ?_⟩
  · rw [cu, ← kept.cu]; rfl
  · rw [cu, ← kept.cu]; rfl
  · rw [cu, ← kept.cu]; exact allEarly_heard v.cu.view
  · rw [cu]; exact allEarly_early v
  · unfold withdrawClaim
    rw [kept.sect]

/-- A WITHDRAW joins the tail of its class where its CLAIM waits no more (R153). -/
theorem place_withdraw_new {n : Nat} {k : SlotNo} {m : BitVec 8} {s : State} (hm : s.sj.mode ≠ .configFault)
    (hn : ∀ y ∈ s.li.tx, claimNumber y.body ≠ some m) :
    place (.withdraw n k m) s = joinTail (.withdraw n k m) s := by
  have none : s.li.tx.any (isClaimNo m) = false := by
    rw [List.any_eq_false]
    intro y hy
    simpa [isClaimNo] using hn y hy
  unfold place
  rw [if_neg hm]
  dsimp only
  rw [none]
  rfl

/-- A CLAIM that is placed, or refused, leaves EARLY entries EARLY (R97, R152). -/
theorem joinTail_early (b : Body) {z : State} (h : ∀ e ∈ z.cu.view, e.late = false) :
    ∀ e ∈ (joinTail b z).cu.view, e.late = false := by
  unfold joinTail
  split
  · unfold refuseFrame claimNotSent
    split
    · split
      · exact allEarly_early _
      · exact h
    · exact h
  · exact h

theorem testClaim_early {z : State} (h : ∀ e ∈ z.cu.view, e.late = false) :
    ∀ e ∈ (testClaim z).cu.view, e.late = false := by
  cases hc : claimTest z with
  | none =>
    unfold testClaim
    rw [hc]
    exact h
  | some p =>
    obtain ⟨k, a, b⟩ := p
    rw [testClaim_placed hc]
    exact joinTail_early _ h

theorem closeEvent_cu (b x : State) : (closeEvent b x).cu = (testClaim (beforeClaim b x)).cu := by
  rw [closeEvent_eq]
  exact (requestEarly_rest b _).2

theorem closeEvent_slot (b x : State) (k : SlotNo) : (closeEvent b x).slot k = (beforeClaim b x).slot k := by
  have rest := planRest_closeEvent b x
  rw [rest.slot]
  exact slot_of_fs (testClaim_fs _) k

theorem not_claimed {k : SlotNo} {z : State} {j : SlotNo} {a b : Nat} (h : claimTest z = some (j, a, b))
    (left : isStartWait (z.slot k).st = false) : j ≠ k := by
  obtain ⟨-, waits, -⟩ := claimTest_some h
  rintro rfl
  rw [waitingSlot_some waits] at left
  cases left

/-- What an event leaves at which a claim was withdrawn (R99, R101, R153). -/
theorem Withdrawn.closes {c : Claim} {s b x : State} (w : Withdrawn c s (beforeClaim b x))
    (left : isStartWait ((beforeClaim b x).slot c.slot).st = false) :
    isStartWait ((closeEvent b x).slot c.slot).st = false ∧
      (s.cu.spacingDue ≠ none → (closeEvent b x).cu.own = .none) ∧
      (∀ y t, (closeEvent b x).cu.own ≠ .granted y t) ∧
      (∀ y t, (closeEvent b x).cu.own = .settling y t → y.slot ≠ c.slot ∧ y.number = s.cu.counter ∧ t = none) ∧
      (closeEvent b x).cu.view.map heardOf = s.cu.view.map heardOf ∧
      (∀ e ∈ (closeEvent b x).cu.view, e.late = false) ∧
      (∀ l y r, s.li.tx = l ++ y :: r → claimNumber y.body = some c.number →
        (∀ z ∈ l, claimNumber z.body ≠ some c.number) → LeavesWaiting (l ++ r) (closeEvent b x)) ∧
      (s.li.tx.length < 10 → (∀ y ∈ s.li.tx, claimNumber y.body ≠ some c.number) →
        LeavesWaiting (insertTail ⟨.withdraw s.sect c.slot c.number, 0⟩ s.li.tx) (closeEvent b x)) := by
  have waiting := leavesWaiting_closeEvent w.own
  obtain ⟨v, mode, tx, queue⟩ := w.queue
  rw [queue] at waiting
  refine ⟨by rw [closeEvent_slot]; exact left, fun spaced => ?_, not_granted_closeEvent w.own, fun y t ho => ?_,
    ?_, ?_, fun l y r hq hy hl => ?_, fun room hn => ?_⟩
  · rcases closeEvent_after w.own with ⟨own, -⟩ | ⟨k, cls, rank, test, -⟩
    · exact own
    · obtain ⟨-, -, -, -, -, -, -, free⟩ := claimTest_some test
      rw [w.spacing] at free
      exact absurd free spaced
  · rcases closeEvent_after w.own with ⟨own, -⟩ | ⟨k, cls, rank, test, own, -⟩
    · rw [own] at ho; cases ho
    · rw [own] at ho
      cases ho
      exact ⟨not_claimed test left, w.counter, rfl⟩
  · rw [closeEvent_cu, (lineRest_testClaim _).heard, w.heard]
  · rw [closeEvent_cu]
    exact testClaim_early w.early
  · rwa [place_withdraw_unsent _ _ _ mode (tx.trans hq) hy hl] at waiting
  · have placed : place (.withdraw s.sect c.slot c.number) v =
        setTx (insertTail ⟨.withdraw s.sect c.slot c.number, 0⟩ s.li.tx) v := by
      rw [place_withdraw_new mode (by rw [tx]; exact hn), joinTail_room _ _ (by rw [tx]; exact room), tx]
    rwa [placed] at waiting

/-! ## The events at which a slot leaves START_WAIT -/

/-- A claim over before a maintenance entry is withdrawn when the claim test is made. -/
theorem Withdrawn.beforeClaim {c : Claim} {s b x : State} (w : Withdrawn c s (beforeEntry b x)) :
    Withdrawn c s (Machine.beforeClaim b x) := by
  obtain ⟨cu, li⟩ := beforeClaim_of_none w.own
  obtain ⟨own, counter, spacing, heard, early, queue⟩ := w
  rw [← cu] at own counter spacing heard early
  rw [← li] at queue
  exact ⟨own, counter, spacing, heard, early, queue⟩

/-- A maintenance entry makes no slot wait for a start (R84). -/
theorem beforeClaim_left {b x : State} {k : SlotNo} (h : isStartWait ((beforeEntry b x).slot k).st = false) :
    isStartWait ((beforeClaim b x).slot k).st = false := by
  unfold beforeClaim enterIfReady
  split
  · have c := (closes_planned (beforeEntry b x) (enterMaintenance (beforeEntry b x))).slots k
    rw [enterMaintenance_slot] at c
    rw [c.intoLocal_st, intoLocal_st]
    split <;> rfl
  · exact h

/-- The own claim's slot has left START_WAIT once the planner has acted: the claim is withdrawn. -/
theorem withdrawn_of_left {s x : State} {c : Claim} {due : Option Time} (kept : ClaimKept s x)
    (ho : s.cu.own = .settling c due) (hm : x.sj.mode ≠ .configFault)
    (left : isStartWait ((recomputeIfDue s (beforePlan s x)).slot c.slot).st = false) :
    Withdrawn c s (beforeClaim s x) ∧ isStartWait ((beforeClaim s x).slot c.slot).st = false := by
  have keptPlan : ClaimKept s (recomputeIfDue s (beforePlan s x)) := by
    refine ⟨?_, by rw [beforePlan_li]; exact kept.tx, (recomputed_sect s x).trans kept.sect⟩
    rw [recomputeIfDue_cu]
    unfold beforePlan
    rw [governingChanged_cu, followList_cu, kept.cu]
  have mode : (recomputeIfDue s (beforePlan s x)).sj.mode ≠ .configFault := fun e => by
    rw [recomputed_sj] at e
    exact hm ((followList_fault x).1 e)
  have withdrawn : Withdrawn c s (beforeEntry s x) := withdrawn_followSlot keptPlan ho left mode
  refine ⟨withdrawn.beforeClaim, beforeClaim_left ?_⟩
  have slot : (beforeEntry s x).slot c.slot = (recomputeIfDue s (beforePlan s x)).slot c.slot :=
    slot_of_fs (followSlot_fs _) _
  rw [slot]
  exact left

/-- A slot that has come to coast or to be TRIPPED does not wait, whatever the planner does. -/
theorem planned_left {b x : State} {k : SlotNo}
    (h : (∃ t, (x.slot k).st = .coasting t) ∨ ∃ t, (x.slot k).st = .tripped t) :
    isStartWait ((recomputeIfDue b (beforePlan b x)).slot k).st = false := by
  have same : ((recomputeIfDue b (beforePlan b x)).slot k).st = (x.slot k).st := recomputed_st fun c r => by
    rcases h with ⟨t, h⟩ | ⟨t, h⟩ <;> rw [h] <;> rfl
  rw [same]
  rcases h with ⟨t, h⟩ | ⟨t, h⟩ <;> rw [h] <;> rfl

section SettlingClaim

variable {s : State} {c : Claim} {due : Option Time} (hs : Settled s) (ho : s.cu.own = .settling c due)
include hs ho

/-- The slot of a SETTLING claim waits for its start (R101). -/
theorem settling_waits : ∃ d, (s.slot c.slot).st = .startWait d := by
  have stands := hs.claimStands
  unfold ClaimStands at stands
  rw [ho] at stands
  obtain ⟨waits, -⟩ := stands
  cases h : (s.slot c.slot).st with
  | startWait d => exact ⟨d, rfl⟩
  | _ => rw [h] at waits; cases waits

/-- TRIP_FB or RUN_FB taken asserted ends the wait (R77, R79). -/
theorem feedback_withdraws (hm : s.sj.mode ≠ .configFault) {n : SlotInput} {t : Time}
    (hn : n = .tripFb ∨ n = .runFb) (pin : ((s.slot c.slot).input n).pin = true) :
    let x := acted c.slot (filtered n (max s.now t) s.fs.maintPending (s.slot c.slot)) t s
    Withdrawn c s (beforeClaim s x) ∧ isStartWait ((beforeClaim s x).slot c.slot).st = false := by
  intro x
  obtain ⟨d, hd⟩ := settling_waits hs ho
  refine withdrawn_of_left ⟨rfl, rfl, rfl⟩ ho hm (planned_left ?_)
  rw [acted_same]
  rcases hn with rfl | rfl
  · right
    rw [filtered_trip, show (s.slot c.slot).tripFb.pin = true from pin]
    exact ⟨_, by unfold trippedState; rw [hd]; rfl⟩
  · left
    rw [filtered_runAsserted _ _ pin]
    exact ⟨_, by unfold ranState; rw [hd]; rfl⟩

/-- MAINT asserted with no slot STARTING or COASTING makes the slot LOCAL (R84). -/
theorem entry_withdraws (t : Time) (hm : s.sj.mode = .incident)
    (idle : ∀ k, isStartingOrCoasting (s.slot k).st = false) :
    Withdrawn c s (beforeClaim s (asserted t s)) ∧
      isStartWait ((beforeClaim s (asserted t s)).slot c.slot).st = false := by
  have ready := maintAsserted_enters hs t (.inr hm) idle
  have mode : ModeByList (asserted t s) := hs.modeByList
  have stands : ClaimStands (asserted t s) := hs.claimStands
  have entry : beforeEntry s (asserted t s) = asserted t s := by
    change followSlot (recomputeIfDue s (beforePlan s (asserted t s))) = _
    rw [beforePlan_self (s := s) mode (governing_congr rfl rfl),
      recomputeIfDue_same (s := s) (x := asserted t s) rfl rfl rfl rfl fun _ => rfl, stands.followSlot_eq]
  have entered : beforeClaim s (asserted t s) =
      followSlot (recomputeIfDue (asserted t s) (enterMaintenance (asserted t s))) := by
    unfold beforeClaim enterIfReady
    rw [if_pos ready, entry]
    rfl
  have slot : isStartWait ((recomputeIfDue (asserted t s) (enterMaintenance (asserted t s))).slot c.slot).st =
      false := by
    have k := (closes_recomputeIfDue (asserted t s) (enterMaintenance (asserted t s))).slots c.slot
    rw [enterMaintenance_slot] at k
    rw [k.intoLocal_st, intoLocal_st]
    split <;> rfl
  rw [entered]
  refine ⟨withdrawn_followSlot ⟨by rw [recomputeIfDue_cu]; rfl, by rw [recomputeIfDue_li]; rfl, ?_⟩ ho slot ?_, ?_⟩
  · unfold State.sect
    rw [recomputeIfDue_sj]
    rfl
  · rw [recomputeIfDue_sj]
    simp [enterMaintenance]
  · rw [slot_of_fs (followSlot_fs _)]
    exact slot

end SettlingClaim

/-! ## An END that ends the one record -/

theorem governing_of_no_actives {s : State} (h : actives s.iu.records = []) : governing s = none := by
  unfold governing governingOf
  rw [h]
  rfl

/-- The END of the one ACTIVE record leaves the list without one (R22). -/
theorem receiveEnd_alone {s : State} {id : Id} {a : Content} {d : Option Demand}
    (h : s.iu.records = [⟨id, .active a d⟩]) : actives (receiveEnd id s).iu.records = [] := by
  have held : findRec s.iu.records id = some ⟨id, .active a d⟩ := by
    rw [h]
    simp [findRec]
  have resolves := resolve_self held (by simp)
  obtain ⟨ends, -, -⟩ := receiveEnd_records id s
  have records := ends _ resolves rfl
  rw [h] at records resolves
  rw [← actives_bare, records]
  simp only [List.map_cons, List.map_nil, resolves, Option.map_some, if_true]
  rfl

theorem receiveEnd_li (id : Id) (s : State) : (receiveEnd id s).li = s.li := by
  unfold receiveEnd
  split
  · split <;> rfl
  · split <;> rfl

theorem catchUp_li (id : Id) (s : State) : (catchUp id s).li = s.li := by
  unfold catchUp
  split <;> rfl

theorem beforePlan_iu (b x : State) : (beforePlan b x).iu = x.iu := by
  have listed : (followList x).iu = x.iu := by
    unfold followList
    split <;> rfl
  have governed (s : State) : (governingChanged b s).iu = s.iu := by
    unfold governingChanged
    split
    · split
      · split <;> rfl
      · rfl
    all_goals rfl
  exact (governed _).trans listed

/-- The END that ends the one record takes the target from the claim's slot (R28, R56, R64). -/
theorem end_withdraws {s : State} {c : Claim} {due : Option Time} (ho : s.cu.own = .settling c due)
    (hm : s.sj.mode = .incident) (f : Octets) (fs : List Octets) {id : Id} {a : Content} {d : Option Demand}
    (h : s.iu.records = [⟨id, .active a d⟩]) :
    let x := receiveEnd id (catchUp id (takenFrom f fs s))
    Withdrawn c s (beforeClaim s x) ∧ isStartWait ((beforeClaim s x).slot c.slot).st = false := by
  intro x
  have rest : IuRest (takenFrom f fs s) x := (iuRest_catchUp id _).trans (iuRest_receiveEnd id _)
  have records : (catchUp id (takenFrom f fs s)).iu.records = [⟨id, .active a d⟩] := by
    simpa using h
  have none : actives x.iu.records = [] := receiveEnd_alone records
  have sj : x.sj = s.sj := by rw [rest.sj, takenFrom_sj]
  have tx : x.li.tx = s.li.tx := by
    rw [show x.li = _ from receiveEnd_li _ _, catchUp_li, takenFrom_tx]
  have kept : ClaimKept s x := ⟨by rw [rest.cu, takenFrom_rest], tx, by unfold State.sect; rw [sj]⟩
  have idle : anyActive x = false := by
    rw [Bool.eq_false_iff, ne_eq, anyActive_iff]
    exact fun g => g none
  have listed : (beforePlan s x).sj.mode = .quiet := by
    have quiet : (followList x).sj = { x.sj with mode := if anyActive x then .incident else .quiet } :=
      followList_sj (.inr (by rw [sj]; exact hm))
    have plan : (beforePlan s x).sj = (followList x).sj := governingChanged_sj _ _
    rw [plan, quiet, idle]
    rfl
  have calls : CallsRecompute s (beforePlan s x) := calls_of_change (.inl (by rw [listed, hm]; simp))
  have ungoverned : governing (beforePlan s x) = Option.none :=
    governing_of_no_actives (by rw [beforePlan_iu]; exact none)
  refine withdrawn_of_left kept ho (by rw [sj, hm]; simp) ?_
  have off : (recompute (beforePlan s x)).tp.targets.get c.slot = .off := by
    rw [recompute_none ungoverned]
    exact Quad.get_all _ _
  rw [recomputeIfDue_calls (by rw [listed]; simp) calls, recompute_st, off]
  exact stateOnTarget_off_waits _ _

/-! ## The settle timer (R100) -/

theorem settleExpiry_next {s : State} {c : Claim} {t : Time} (ho : s.cu.own = .settling c (some t)) :
    exec .settleExpiry s = .next (closeEvent s (settle c (reachTime t s))) := by
  change execSettleExpiry s = _
  unfold execSettleExpiry
  rw [ho]
  rfl

/-- While a slot is STARTING under its GRANTED claim the claim stands through what follows the event. -/
theorem granted_closes {b x : State} {c : Claim} {due : Option Time} (ho : x.cu.own = .granted c due)
    (hk : isStarting (x.slot c.slot).st = true) : (closeEvent b x).cu = x.cu := by
  have cu : (recomputeIfDue b (beforePlan b x)).cu = x.cu := by
    rw [recomputeIfDue_cu]
    unfold beforePlan
    rw [governingChanged_cu, followList_cu]
  have starts : isStarting ((recomputeIfDue b (beforePlan b x)).slot c.slot).st = true := by
    rw [(((closes_beforePlan b x).trans (closes_recomputeIfDue b _)).slots c.slot).starting hk]
    exact hk
  have stands : ClaimStands (recomputeIfDue b (beforePlan b x)) := by
    unfold ClaimStands
    rw [cu, ho]
    exact starts
  have entry : beforeEntry b x = recomputeIfDue b (beforePlan b x) := stands.followSlot_eq
  have busy : maintReady (beforeEntry b x) = false := by
    refine maintReady_of_busy (k := c.slot) ?_
    rw [entry]
    cases h : ((recomputeIfDue b (beforePlan b x)).slot c.slot).st with
    | starting d t => rfl
    | _ => rw [h] at starts; cases starts
  have claim : beforeClaim b x = recomputeIfDue b (beforePlan b x) := by
    unfold beforeClaim enterIfReady
    rw [busy, entry]
    rfl
  rw [closeEvent_cu, claim]
  unfold testClaim
  rw [claimTest_of_own (by rw [cu, ho]; simp)]
  exact cu

section Settle

variable {s : State} {c : Claim} {t : Time} {d : Direction} (hs : Settled s)
  (ho : s.cu.own = .settling c (some t)) (hd : (s.slot c.slot).st = .startWait d)

section Granted

variable (ahead : claimsAhead c s.cu.view < 2)
include hd ahead

/-- With fewer than 2 claims ahead the claim is GRANTED and its slot STARTING (R67, R100). -/
theorem settle_grants : settle c (reachTime t s) = setSlot c.slot
    { s.slot c.slot with st := .starting d (max s.now t + startTime) }
    (setOwn (.granted c (some (max s.now t + renewalTime))) (allEarly (reachTime t s))) := by
  rcases settle_cases c (reachTime t s) with ⟨d', hd', -, e⟩ | ⟨h, -⟩
  · rw [show ((reachTime t s).slot c.slot).st = .startWait d from hd] at hd'
    cases hd'
    exact e
  · exact absurd ⟨ahead, by rw [show ((reachTime t s).slot c.slot).st = .startWait d from hd]; rfl⟩ h

theorem settle_granted (held : s.sj.held = false) :
    (closeEvent s (settle c (reachTime t s))).cu =
      { s.cu with own := .granted c (some (max s.now t + 10000000)), view := (allEarly s).cu.view } ∧
      ((closeEvent s (settle c (reachTime t s))).slot c.slot).st = .starting d (max s.now t + 15000000) ∧
      driveOut (closeEvent s (settle c (reachTime t s))) c.slot = some d := by
  have own : (settle c (reachTime t s)).cu =
      { s.cu with own := .granted c (some (max s.now t + 10000000)), view := (allEarly s).cu.view } := by
    rw [settle_grants hd ahead]
    rfl
  have starts : ((settle c (reachTime t s)).slot c.slot).st = .starting d (max s.now t + 15000000) := by
    rw [settle_grants hd ahead, setSlot_slot_same]
    rfl
  have starting : isStarting ((settle c (reachTime t s)).slot c.slot).st = true := by rw [starts]; rfl
  have closing := closes_closeEvent s (settle c (reachTime t s))
  have st := ((closing.slots c.slot).starting starting).trans starts
  refine ⟨(granted_closes (by rw [own]) starting).trans own, st, ?_⟩
  have running : (closeEvent s (settle c (reachTime t s))).sj.held = false := by
    rw [closing.sj, settle_grants hd ahead]
    exact held
  unfold driveOut
  rw [running, st]
  rfl

end Granted

/-- The settle timer's withdrawal, in a part whose state was settled, is followed by nothing but a STATUS: the slots
stand, and 2 claims ahead forbid another CLAIM (R98, R100). -/
theorem settle_withdrawn_claim (hs : Settled s) (ahead : 2 ≤ claimsAhead c s.cu.view) :
    beforeClaim s (withdrawClaim c (reachTime t s)) = withdrawClaim c (reachTime t s) ∧
      claimTest (withdrawClaim c (reachTime t s)) = none := by
  have rest := lineRest_withdrawClaim c (reachTime t s)
  have slots (k : SlotNo) : (withdrawClaim c (reachTime t s)).slot k = s.slot k := slot_of_fs rest.fs k
  have own : (withdrawClaim c (reachTime t s)).cu.own = .none := withdrawClaim_own _ _
  have list : anyActive (withdrawClaim c (reachTime t s)) = anyActive s := anyActive_congr (by rw [rest.iu]; rfl)
  have mode : ModeByList (withdrawClaim c (reachTime t s)) := by
    have h := hs.modeByList
    unfold ModeByList at h ⊢
    rw [rest.sj, list]
    exact h
  have entry : beforeEntry s (withdrawClaim c (reachTime t s)) = withdrawClaim c (reachTime t s) := by
    change followSlot (recomputeIfDue s (beforePlan s (withdrawClaim c (reachTime t s)))) = _
    rw [beforePlan_self (s := s) mode (governing_congr (by rw [rest.sj]; rfl) (by rw [rest.iu]; rfl)),
      recomputeIfDue_same (s := s) rest.sj rest.iu rest.pt (by rw [rest.su]; rfl) (fun k => by rw [slots]),
      followSlot_none own]
  have busy : maintReady (withdrawClaim c (reachTime t s)) = false := by
    have h := hs.noEntryDue
    unfold maintReady at h ⊢
    rw [rest.fs, rest.sj]
    exact h
  refine ⟨?_, ?_⟩
  · unfold beforeClaim enterIfReady
    rw [entry, busy]
    rfl
  · cases test : claimTest (withdrawClaim c (reachTime t s)) with
    | none => rfl
    | some p =>
      obtain ⟨-, -, -, -, -, -, few, -⟩ := claimTest_some test
      have view : (withdrawClaim c (reachTime t s)).cu.view.length = s.cu.view.length := by
        have heard := congrArg List.length rest.heard
        simpa using heard
      have most : claimsAhead c s.cu.view ≤ s.cu.view.length := List.length_filter_le _ _
      omega

theorem settle_withdraws (ahead : 2 ≤ claimsAhead c s.cu.view) :
    settle c (reachTime t s) = withdrawClaim c (reachTime t s) := by
  unfold settle
  exact if_neg fun h => absurd h.1 (Nat.not_lt.2 ahead)

/-- After such a withdrawal only a fault output or a STATUS can differ. -/
theorem settle_withdrawn (hs : Settled s) (ahead : 2 ≤ claimsAhead c s.cu.view) :
    closeEvent s (settle c (reachTime t s)) =
      requestEarly s (followFlash s (withdrawClaim c (reachTime t s))) := by
  obtain ⟨claim, test⟩ := settle_withdrawn_claim (t := t) hs ahead
  rw [settle_withdraws ahead, closeEvent_eq, claim]
  unfold testClaim
  rw [test]

/-- A withdrawal that finds room asks for no STATUS (R144). -/
theorem settle_withdrawn_li (hs : Settled s) (ahead : 2 ≤ claimsAhead c s.cu.view)
    (hm : s.sj.mode ≠ .configFault) (room : s.li.tx.length < 10)
    (unsent : ∀ x ∈ s.li.tx, claimNumber x.body ≠ some c.number) :
    (closeEvent s (settle c (reachTime t s))).li =
      { s.li with tx := insertTail ⟨.withdraw s.sect c.slot c.number, 0⟩ s.li.tx } := by
  have placed : withdrawClaim c (reachTime t s) =
      setTx (insertTail ⟨.withdraw s.sect c.slot c.number, 0⟩ s.li.tx) (setOwn .none (allEarly (reachTime t s))) := by
    unfold withdrawClaim
    exact (place_withdraw_new (s := setOwn .none (allEarly (reachTime t s))) hm unsent).trans
      (joinTail_room _ _ room)
  have report : reportOf s = reportOf (followFlash s (withdrawClaim c (reachTime t s))) := by
    rw [placed]
    rfl
  rw [settle_withdrawn hs ahead]
  unfold requestEarly
  rw [if_pos report, ite_self, placed]
  rfl

end Settle

/-- Settles O41: the settle timer grants or withdraws by the claims ahead, and each of the four events by which a slot
leaves START_WAIT withdraws its claim. -/
theorem settleGrantsOrWithdraws : Obligations.SettleGrantsOrWithdraws := by
  refine ⟨fun s c t d hs held ho hd => ?_, fun s i c due hs ho hm events => ?_⟩
  · have closing := closes_closeEvent s (settle c (reachTime t s))
    have now : (settle c (reachTime t s)).now = max s.now t := by
      rcases settle_cases c (reachTime t s) with ⟨_, -, -, e⟩ | ⟨-, e⟩
      · rw [e]; rfl
      · rw [e]; exact (lineRest_withdrawClaim c _).now
    refine ⟨_, settleExpiry_next ho, closing.now.trans now, ?_, fun ahead => ?_, fun ahead => ?_⟩
    · by_cases ahead : claimsAhead c s.cu.view < 2
      · rw [(settle_granted (t := t) hd ahead held).1]
        rfl
      · have cu : (withdrawClaim c (reachTime t s)).cu = (setOwn .none (allEarly (reachTime t s))).cu :=
          place_cu_eq _ _ rfl
        rw [settle_withdrawn hs (Nat.not_lt.1 ahead), (requestEarly_rest _ _).2]
        exact congrArg Cu.view cu
    · obtain ⟨cu, st, drive⟩ := settle_granted (t := t) hd ahead held
      exact ⟨by rw [cu], st, drive⟩
    · have rest := settle_withdrawn (t := t) hs ahead
      refine ⟨?_, ?_, fun hm room unsent => settle_withdrawn_li hs ahead hm room unsent⟩
      · rw [rest, (requestEarly_rest _ _).2]
        exact withdrawClaim_own _ _
      · rw [rest, (planRest_requestEarly _ _).fs]
        exact (lineRest_withdrawClaim c (reachTime t s)).fs
  · suffices w : ∃ x, exec i s = .next (closeEvent s x) ∧ Withdrawn c s (beforeClaim s x) ∧
        isStartWait ((beforeClaim s x).slot c.slot).st = false by
      obtain ⟨x, next, withdrawn, left⟩ := w
      exact ⟨_, next, withdrawn.closes left⟩
    rcases events with ⟨rfl, timer, pin⟩ | ⟨rfl, timer, pin⟩ | ⟨rfl, timer, pin, mode, idle⟩ |
      ⟨rfl, mode, f, fs, id, a, d, rx, kind, read, records⟩
    · obtain ⟨t, due⟩ := Option.ne_none_iff_exists'.1 timer
      exact ⟨_, filterExpiry_next (n := .tripFb) due, feedback_withdraws hs ho hm (.inl rfl) pin⟩
    · obtain ⟨t, due⟩ := Option.ne_none_iff_exists'.1 timer
      exact ⟨_, filterExpiry_next (n := .runFb) due, feedback_withdraws hs ho hm (.inr rfl) pin⟩
    · obtain ⟨t, due⟩ := Option.ne_none_iff_exists'.1 timer
      exact ⟨_, maintAsserted_next due pin (.inr mode), entry_withdraws hs ho t mode idle⟩
    · exact ⟨_, endTaken_next rx hm (.inl ⟨rfl, kind, read⟩), end_withdraws ho mode f fs records⟩

end Sys2Proof.Machine
end

section
/-! PROOFS. A grant's renewal places its CLAIM again, and an entry of the claim view is removed at an age of 12 s
(O42). -/

namespace Sys2Proof.Machine

/-- A CLAIM placed in a queue with room joins the tail of its class, and nothing else happens (R152, R153). -/
theorem place_claim_room (n : Nat) (c : Claim) {s : State} (hm : s.sj.mode ≠ .configFault)
    (room : s.li.tx.length < 10) : place (.claim n c) s = setTx (insertTail ⟨.claim n c, 0⟩ s.li.tx) s :=
  (place_claim hm).trans (joinTail_room _ s room)

/-- The renewal timer of the granted claim runs out (R102). -/
theorem claimRenewal_next {s : State} {c : Claim} {t : Time} (hs : Settled s)
    (ho : s.cu.own = .granted c (some t)) (hm : s.sj.mode ≠ .configFault) (room : s.li.tx.length < 10) :
    exec .claimRenewal s = .next (setTx (insertTail ⟨.claim s.sect c, 0⟩ s.li.tx)
      (setOwn (.granted c none) (reachTime t s))) := by
  have renewed : renewClaim c (reachTime t s) = setTx (insertTail ⟨.claim s.sect c, 0⟩ s.li.tx)
      (setOwn (.granted c none) (reachTime t s)) :=
    place_claim_room s.sect c (s := setOwn (.granted c none) (reachTime t s)) hm room
  change execClaimRenewal s = _
  unfold execClaimRenewal
  rw [ho]
  refine onTimer_eq rfl hs renewed ⟨rfl, rfl, rfl, rfl, rfl, rfl, ?_, id, id, rfl, rfl, rfl⟩
  rw [ho]
  rfl

/-- Settles O42: the renewal touches nothing the closing stages look at, and the expiry's own effect is the view
without the station's entry. -/
theorem claimRenewalAndEntryExpiry : Obligations.ClaimRenewalAndEntryExpiry := by
  refine ⟨fun s c t hs ho hm room => claimRenewal_next hs ho hm room, fun s p e he => ?_⟩
  have due : entryDue s.cu.view p = some (e.heardAt + 12000000) := by
    unfold entryDue
    rw [he]
    rfl
  obtain ⟨u, next, -, closes, -⟩ :=
    onTimer_closes (fun s => setView (s.cu.view.filter fun e => e.station != p) s) s due
  exact ⟨u, next, closes⟩

end Sys2Proof.Machine
end

section
/-! PROOFS. Frames of the claim kinds taken from other stations: what each leaves, and the WITHDRAW or RELEASE that
removes its source's entry of its number (O38). -/

namespace Sys2Proof.Machine

/-! ## The checks of R94 and R95 -/

theorem readSlot_none_iff (n : Nat) : readSlot n = none ↔ n = 0 ∨ 4 < n := by
  unfold readSlot
  split
  · simp
  · simp
  · simp
  · simp
  · rename_i h1 h2 h3 h4
    have others : n ≠ 1 ∧ n ≠ 2 ∧ n ≠ 3 ∧ n ≠ 4 := ⟨h1, h2, h3, h4⟩
    exact iff_of_true rfl (by omega)

theorem readSlot_number {n : Nat} {k : SlotNo} (h : readSlot n = some k) : slotNumber k = n := by
  unfold readSlot at h
  split at h
  · cases h; rfl
  · cases h; rfl
  · cases h; rfl
  · cases h; rfl
  · cases h

theorem handOff_claim {f : Octets} (s : State) (h : kindOf f = .claim) :
    handOff f s = receiveClaim (frameSource f) (frameBody f) s := by unfold handOff; rw [h]

theorem handOff_claimEnd {f : Octets} (s : State) (h : kindOf f = .withdraw ∨ kindOf f = .release) :
    handOff f s = receiveClaimEnd (frameSource f) (frameBody f) s := by
  unfold handOff
  rcases h with h | h <;> rw [h]

/-! ## What is heard -/

/-- The station and its section as a taken frame finds them. -/
@[simp] theorem takenFrom_sect (f : Octets) (fs : List Octets) (s : State) : (takenFrom f fs s).sect = s.sect := by
  unfold State.sect; rw [takenFrom_sj]
@[simp] theorem takenFrom_cu (f : Octets) (fs : List Octets) (s : State) : (takenFrom f fs s).cu = s.cu := by
  rw [takenFrom_rest]

/-- What taking a claim frame leaves but for the claim view and the health flags. -/
structure ViewRest (s x : State) : Prop where
  now : x.now = s.now
  su : x.su = s.su
  iu : x.iu = s.iu
  li : x.li = s.li

theorem viewRest_setView (v : List ClaimEntry) (s : State) : ViewRest s (setView v s) := ⟨rfl, rfl, rfl, rfl⟩

theorem viewRest_raise (f : TimedFlag) (s : State) : ViewRest s (raiseFlag f s) := ⟨rfl, rfl, rfl, rfl⟩

theorem viewRest_receiveClaimEnd (p : Nat) (b : Octets) (s : State) : ViewRest s (receiveClaimEnd p b s) := by
  unfold receiveClaimEnd
  split
  · split
    · exact viewRest_raise _ s
    · exact viewRest_setView _ s
  · exact ⟨rfl, rfl, rfl, rfl⟩

theorem applyClaim_eq (p : Nat) (c : Claim) (s : State) : ∃ v, applyClaim p c s = setView v s := by
  unfold applyClaim
  dsimp only
  split
  · split <;> exact ⟨_, rfl⟩
  · exact ⟨_, rfl⟩

theorem viewRest_receiveClaim (p : Nat) (b : Octets) (s : State) : ViewRest s (receiveClaim p b s) := by
  unfold receiveClaim
  split
  · split
    · exact viewRest_raise _ s
    · obtain ⟨v, e⟩ := applyClaim_eq p ‹_› s
      rw [e]
      exact viewRest_setView _ s
  · exact ⟨rfl, rfl, rfl, rfl⟩

/-- What every claim frame taken leaves (R28, R56: the closing may give a record its demand part). -/
theorem ViewRest.taken {f : Octets} {fs : List Octets} {s x u : State} (r : ViewRest (takenFrom f fs s) x)
    (k : Closes x u) : u.li.rx = fs ∧ u.now = s.now ∧ u.su = s.su ∧
      u.iu.records.map bare = s.iu.records.map bare := by
  refine ⟨?_, ?_, ?_, ?_⟩
  · rw [k.rx, r.li, takenFrom_rx]
  · rw [k.now, r.now, takenFrom_now]
  · rw [k.su, r.su, takenFrom_su]
  · rw [k.bare, r.iu, takenFrom_iu]

/-- LINE_ERRORS raised by a frame taken stands when the event ends. -/
theorem Closes.lineErrors {s u : State} (k : Closes (raiseFlag .lineErrors s) u) :
    u.health.get .lineErrors = some (s.now + 60000000) := by
  rw [k.health _ (by simp)]
  rfl

/-! ## WITHDRAW and RELEASE (R95) -/

theorem receiveClaimEnd_other {p : Nat} {b : Octets} {s : State} (h : natAt b 0 ≠ s.sect) :
    receiveClaimEnd p b s = s := by
  unfold receiveClaimEnd
  exact if_neg h

theorem receiveClaimEnd_fails {p : Nat} {b : Octets} {s : State} (h : natAt b 0 = s.sect)
    (slot : natAt b 1 = 0 ∨ 4 < natAt b 1) : receiveClaimEnd p b s = raiseFlag .lineErrors s := by
  unfold receiveClaimEnd
  rw [if_pos h, (readSlot_none_iff _).2 slot]

theorem receiveClaimEnd_removes {p : Nat} {b : Octets} {s : State} (h : natAt b 0 = s.sect)
    (low : 1 ≤ natAt b 1) (high : natAt b 1 ≤ 4) : receiveClaimEnd p b s =
      setView (s.cu.view.filter fun e => !(e.station == p && e.claim.number == octetAt b 2)) s := by
  unfold receiveClaimEnd
  rw [if_pos h]
  split
  · rename_i bad
    rcases (readSlot_none_iff _).1 bad <;> omega
  · rfl

/-- Settles O38, by the cases of R95's checks: another section, a slot outside 1 to 4, and the removal. -/
theorem withdrawAndReleaseRemoveTheEntry : Obligations.WithdrawAndReleaseRemoveTheEntry := by
  intro s f fs i rx mode kind
  obtain ⟨k, named, ended, kindOk⟩ : ∃ k, exec i s = takeFrame k s ∧ (k = .withdraw ∨ k = .release) ∧
      classify s.count f = k := by
    rcases kind with ⟨rfl, h⟩ | ⟨rfl, h⟩
    · exact ⟨.withdraw, rfl, .inl rfl, h⟩
    · exact ⟨.release, rfl, .inr rfl, h⟩
  have valid : k ≠ .invalid := by rcases ended with rfl | rfl <;> simp
  have next := takeFrame_handOff rx kindOk valid mode
  have kind := (classify_valid kindOk valid).1
  rw [handOff_claimEnd _ (kind.symm ▸ ended)] at next
  have closes := closes_closeEvent s (receiveClaimEnd (frameSource f) (frameBody f) (takenFrom f fs s))
  obtain ⟨hrx, now, su, bare⟩ := (viewRest_receiveClaimEnd _ _ _).taken closes
  refine ⟨_, named.trans next, hrx, now, su, bare, fun own low high => ?_, fun own slot => ?_, fun other => ?_⟩
  · rw [closes.heard, receiveClaimEnd_removes (by simpa using own) low high]
    simp
  · rw [receiveClaimEnd_fails (by simpa using own) slot] at closes ⊢
    exact ⟨by rw [closes.heard]; simp, by simpa using closes.lineErrors⟩
  · rw [closes.heard, receiveClaimEnd_other (by simpa using other), takenFrom_cu]

end Sys2Proof.Machine
end

section
/-! PROOFS. A CLAIM taken from another station renews, replaces or enters its source's entry (O37). -/

namespace Sys2Proof.Machine

/-! ## A CLAIM body read and checked (R94) -/

theorem toNat_append_octet {w : Nat} (x : BitVec w) (o : Octet) : (x ++ o).toNat = x.toNat * 256 + o.toNat := by
  rw [BitVec.toNat_append, ← Nat.shiftLeft_add_eq_or_of_lt o.isLt, Nat.shiftLeft_eq]

/-- A serial's four octets, the highest first (R138). -/
theorem serial_toNat (b : Octets) : (octetAt b 5 ++ octetAt b 6 ++ octetAt b 7 ++ octetAt b 8).toNat =
    ((natAt b 5 * 256 + natAt b 6) * 256 + natAt b 7) * 256 + natAt b 8 := by
  rw [toNat_append_octet, toNat_append_octet, toNat_append_octet]
  rfl

theorem serial_zero_iff (b : Octets) :
    (octetAt b 5 ++ octetAt b 6 ++ octetAt b 7 ++ octetAt b 8 : BitVec 32) = 0#32 ↔
      natAt b 5 = 0 ∧ natAt b 6 = 0 ∧ natAt b 7 = 0 ∧ natAt b 8 = 0 := by
  rw [← BitVec.toNat_inj, serial_toNat, BitVec.toNat_ofNat]
  omega

theorem readClaim_none_iff (n : Nat) (b : Octets) : readClaim n b = none ↔
    (natAt b 1 = 0 ∨ 4 < natAt b 1) ∨ 1 < natAt b 3 ∨ n ≤ natAt b 4 ∨
      (natAt b 5 = 0 ∧ natAt b 6 = 0 ∧ natAt b 7 = 0 ∧ natAt b 8 = 0) := by
  rw [← readSlot_none_iff, ← serial_zero_iff]
  unfold readClaim
  cases readSlot (natAt b 1) with
  | none => simp
  | some k =>
    simp only [reduceCtorEq, false_or]
    split
    · rename_i good
      simp only [Bool.and_eq_true, decide_eq_true_eq, bne_iff_ne, ne_eq] at good
      obtain ⟨⟨cls, rank⟩, serial⟩ := good
      simp [serial, Nat.not_lt.2 cls, Nat.not_le.2 rank]
    · rename_i bad
      simp only [Bool.and_eq_true, decide_eq_true_eq, bne_iff_ne, ne_eq, not_and_or, not_not, Nat.not_le,
        Nat.not_lt, or_assoc] at bad
      exact iff_of_true rfl bad

theorem readClaim_fields {n : Nat} {b : Octets} {c : Claim} (h : readClaim n b = some c) :
    slotNumber c.slot = natAt b 1 ∧ c.number = octetAt b 2 ∧ c.key.cls = natAt b 3 ∧
      c.key.rank = natAt b 4 ∧
      c.key.serial = octetAt b 5 ++ octetAt b 6 ++ octetAt b 7 ++ octetAt b 8 := by
  unfold readClaim at h
  split at h
  · cases h
  · rename_i k slot
    dsimp only at h
    split at h
    · cases h
      exact ⟨readSlot_number slot, rfl, rfl, rfl, rfl⟩
    · cases h

/-! ## The view a CLAIM leaves (R94, R97) -/

/-- The view once a CLAIM `c` from `p` has been applied at `now`: a renewal keeps its entry's claim and phase, any
other CLAIM replaces or makes the entry. -/
def claimedView (p : Nat) (c : Claim) (late : Bool) (now : Time) (v : List ClaimEntry) : List ClaimEntry :=
  match v.find? fun e => e.station == p with
  | some e => (v.filter fun e => e.station != p) ++
      [if e.claim.number = c.number then { e with heardAt := now } else ⟨p, c, now, late⟩]
  | none => (if v.length < 16 then v else v.drop 1) ++ [⟨p, c, now, late⟩]

theorem applyClaim_view (p : Nat) (c : Claim) (s : State) :
    applyClaim p c s = setView (claimedView p c (settleRuns s) s.now s.cu.view) s := by
  unfold applyClaim claimedView
  dsimp only
  cases s.cu.view.find? fun e => e.station == p with
  | some e =>
    dsimp only
    split <;> rfl
  | none =>
    have room : (if maxClaims ≤ s.cu.view.length then s.cu.view.drop 1 else s.cu.view) =
        if s.cu.view.length < 16 then s.cu.view else s.cu.view.drop 1 := by
      by_cases h : s.cu.view.length < 16
      · rw [if_pos h, if_neg (show ¬ maxClaims ≤ _ from Nat.not_le.2 h)]
      · rw [if_neg h, if_pos (show maxClaims ≤ _ from Nat.not_lt.1 h)]
    dsimp only
    unfold addEntry
    rw [room]

theorem receiveClaim_other {p : Nat} {b : Octets} {s : State} (h : natAt b 0 ≠ s.sect) :
    receiveClaim p b s = s := by
  unfold receiveClaim
  exact if_neg h

theorem receiveClaim_fails {p : Nat} {b : Octets} {s : State} (h : natAt b 0 = s.sect)
    (bad : readClaim s.count b = none) : receiveClaim p b s = raiseFlag .lineErrors s := by
  unfold receiveClaim
  rw [if_pos h, bad]

theorem receiveClaim_applies {p : Nat} {b : Octets} {s : State} {c : Claim} (h : natAt b 0 = s.sect)
    (good : readClaim s.count b = some c) :
    receiveClaim p b s = setView (claimedView p c (settleRuns s) s.now s.cu.view) s := by
  unfold receiveClaim
  rw [if_pos h, good]
  exact applyClaim_view p c s

/-! ## What the closing leaves of the view -/

/-- Placing a CLAIM in a queue with room leaves the view. -/
theorem testClaim_view {z : State} (room : z.li.tx.length < 10) : (testClaim z).cu.view = z.cu.view := by
  cases test : claimTest z with
  | none =>
    unfold testClaim
    rw [test]
  | some p =>
    obtain ⟨k, a, b⟩ := p
    rw [testClaim_placed test, joinTail_room _ (claiming z _) room]
    rfl

/-- The own claim's end changes the view only where the claim was SETTLING and is withdrawn (R97, R101). -/
theorem followSlot_view (s : State) : (followSlot s).cu.view = s.cu.view ∨
    ∃ c due, s.cu.own = .settling c due ∧ (followSlot s).cu.own = .none ∧
      (isStartWait (s.slot c.slot).st = false ∨ s.sj.mode = .quiet) := by
  cases own : s.cu.own with
  | none => left; rw [followSlot_none own]
  | granted c due =>
    left
    unfold followSlot
    rw [own]
    dsimp only
    split
    · rfl
    · unfold releaseClaim
      rw [place_cu_eq _ _ rfl]
      rfl
  | settling c due =>
    by_cases stands : isStartWait (s.slot c.slot).st = true ∧ s.sj.mode ≠ .quiet
    · left
      have : ClaimStands s := by
        unfold ClaimStands
        rw [own]
        exact stands
      rw [this.followSlot_eq]
    · right
      rw [not_and_or, Bool.not_eq_true, not_not] at stands
      refine ⟨c, due, rfl, ?_, stands⟩
      have withdrawn : followSlot s = withdrawClaim c s := by
        unfold followSlot
        rw [own]
        refine if_neg fun h => ?_
        rw [Bool.and_eq_true, bne_iff_ne] at h
        rcases stands with left | quiet
        · rw [h.1] at left; cases left
        · exact h.2 quiet
      rw [withdrawn]
      exact withdrawClaim_own c s

/-- With no entry to make the claim test is made after the planner and the own claim. -/
theorem beforeClaim_waits {b x : State} (h : maintReady (beforeEntry b x) = false) :
    beforeClaim b x = beforeEntry b x := by
  unfold beforeClaim enterIfReady
  rw [h]
  rfl

/-- An entry that can be made comes before the claim test (R83, R98). -/
theorem beforeClaim_enters {b x : State} (h : maintReady (beforeEntry b x) = true) :
    beforeClaim b x = planned (beforeEntry b x) (enterMaintenance (beforeEntry b x)) := by
  unfold beforeClaim enterIfReady
  exact if_pos h

theorem beforeClaim_entered {b x : State} (h : maintReady (beforeEntry b x) = true) :
    (beforeClaim b x).sj.mode = .maintenance := by
  rw [beforeClaim_enters h, planned_sj]
  rfl

theorem recomputed_cu (b x : State) : (recomputeIfDue b (beforePlan b x)).cu = x.cu := by
  rw [recomputeIfDue_cu]
  unfold beforePlan
  rw [governingChanged_cu, followList_cu]

/-- Where the own claim is withdrawn before a maintenance entry is considered, the claim test finds its slot no longer
waiting, or another mode than INCIDENT. -/
theorem beforeClaim_left_or_mode {b x : State} {k : SlotNo}
    (h : isStartWait ((recomputeIfDue b (beforePlan b x)).slot k).st = false ∨
      (recomputeIfDue b (beforePlan b x)).sj.mode = .quiet) :
    isStartWait ((beforeClaim b x).slot k).st = false ∨ (beforeClaim b x).sj.mode ≠ .incident := by
  rcases h with left | quiet
  · have slot : (beforeEntry b x).slot k = (recomputeIfDue b (beforePlan b x)).slot k :=
      slot_of_fs (followSlot_fs _) _
    exact .inl (beforeClaim_left (slot ▸ left))
  · right
    cases ready : maintReady (beforeEntry b x) with
    | true => rw [beforeClaim_entered ready]; simp
    | false =>
      have mode : (beforeEntry b x).sj.mode = .quiet := (congrArg Sj.mode (followSlot_sj _)).trans quiet
      rw [beforeClaim_waits ready, mode]
      simp

/-- An event leaves the view as its own rule left it, unless the SETTLING claim is withdrawn, and then the claim test
finds its slot no longer waiting, or another mode than INCIDENT. -/
theorem beforeClaim_view (b x : State) : (beforeClaim b x).cu.view = x.cu.view ∨
    ∃ c due, x.cu.own = .settling c due ∧ (beforeClaim b x).cu.own = .none ∧
      (isStartWait ((beforeClaim b x).slot c.slot).st = false ∨ (beforeClaim b x).sj.mode ≠ .incident) := by
  rcases followSlot_view (recomputeIfDue b (beforePlan b x)) with view | ⟨c, due, own, none, left⟩
  · have view : (beforeEntry b x).cu.view = x.cu.view := by rw [← recomputed_cu b x]; exact view
    cases ready : maintReady (beforeEntry b x) with
    | false => left; rw [beforeClaim_waits ready]; exact view
    | true =>
      have kept : (recomputeIfDue (beforeEntry b x) (enterMaintenance (beforeEntry b x))).cu =
          (beforeEntry b x).cu := recomputeIfDue_cu _ _
      have mode := beforeClaim_entered ready
      rw [beforeClaim_enters ready] at mode ⊢
      rcases followSlot_view (recomputeIfDue (beforeEntry b x) (enterMaintenance (beforeEntry b x))) with
        same | ⟨c, due, own, none, -⟩
      · left
        exact same.trans (by rw [kept, view])
      · right
        refine ⟨c, due, ?_, none, .inr (by rw [mode]; simp)⟩
        rw [kept] at own
        rcases followSlot_own (recomputeIfDue b (beforePlan b x)) with e | e
        · rw [← recomputed_cu b x, ← e]; exact own
        · rw [show (beforeEntry b x).cu.own = .none from e] at own; cases own
  · have none : (beforeEntry b x).cu.own = .none := none
    exact .inr ⟨c, due, recomputed_cu b x ▸ own, by rw [(beforeClaim_of_none none).1, none],
      beforeClaim_left_or_mode left⟩

theorem beforeClaim_length (b x : State) : (beforeClaim b x).li.tx.length ≤ x.li.tx.length + 2 := by
  have plan : (beforeEntry b x).li.tx.length ≤ x.li.tx.length + 1 := by
    have h := followSlot_length (recomputeIfDue b (beforePlan b x))
    rw [beforePlan_li] at h
    exact h
  unfold beforeClaim enterIfReady
  split
  · have h := planned_length (beforeEntry b x) (enterMaintenance (beforeEntry b x))
    have li : (enterMaintenance (beforeEntry b x)).li = (beforeEntry b x).li := rfl
    rw [li] at h
    omega
  · omega

/-- With room for the frames that may follow, an event at which no SETTLING claim ends leaves the view as its own rule
left it. -/
theorem closeEvent_view {b x : State} (room : x.li.tx.length < 8)
    (stays : ∀ c due, x.cu.own = .settling c due → (closeEvent b x).cu.own = .settling c due) :
    (closeEvent b x).cu.view = x.cu.view := by
  have length := beforeClaim_length b x
  rw [closeEvent_cu, testClaim_view (by omega)]
  rcases beforeClaim_view b x with view | ⟨c, due, own, none, left⟩
  · exact view
  · have stays := stays c due own
    exfalso
    rcases closeEvent_after none with ⟨ended, -⟩ | ⟨k, cls, rank, test, anew, -⟩
    · rw [ended] at stays; cases stays
    · rw [anew] at stays
      cases stays
      rcases left with left | mode
      · exact not_claimed test left rfl
      · exact mode (claimTest_some test).2.2.2.1

theorem settleRuns_eq (s : State) :
    (match s.cu.own with | .settling _ (some _) => true | _ => false) = settleRuns s := by
  unfold settleRuns
  split
  · rename_i h; rw [h]
  · rename_i h
    cases own : s.cu.own with
    | none => rfl
    | granted c due => rfl
    | settling c due =>
      cases due with
      | none => rfl
      | some t => exact absurd own (h c t)

/-- Settles O37: R94's checks are `readClaim`'s, and by their outcome the view stands or is `claimedView`. -/
theorem claimReceivedEntersTheView : Obligations.ClaimReceivedEntersTheView := by
  refine ⟨fun n b => ⟨(readClaim_none_iff n b).symm, fun c h => ?_⟩, fun s f fs rx kindOk mode => ?_⟩
  · obtain ⟨slot, number, cls, rank, serial⟩ := readClaim_fields h
    exact ⟨slot, number, cls, rank, by rw [serial, serial_toNat]⟩
  have next := takeFrame_handOff rx kindOk (by simp) mode
  rw [handOff_claim _ (classify_valid kindOk (by simp)).1] at next
  have closes := closes_closeEvent s (receiveClaim (frameSource f) (frameBody f) (takenFrom f fs s))
  obtain ⟨hrx, now, su, bare⟩ := (viewRest_receiveClaim _ _ _).taken closes
  refine ⟨_, next, hrx, now, su, bare, fun other => ?_, fun own bad => ?_, fun c own good => ?_⟩
  · rw [closes.heard, receiveClaim_other (by simpa using other), takenFrom_cu]
  · rw [receiveClaim_fails (by simpa using own) (by simpa using bad)] at closes ⊢
    exact ⟨by rw [closes.heard]; simp, by simpa using closes.lineErrors⟩
  · have applied := receiveClaim_applies (p := frameSource f) (s := takenFrom f fs s) (by simpa using own)
      (by simpa using good)
    have runs : settleRuns (takenFrom f fs s) = settleRuns s := by unfold settleRuns; rw [takenFrom_cu]
    rw [runs, takenFrom_now, takenFrom_cu, ← settleRuns_eq] at applied
    rw [applied] at closes ⊢
    refine ⟨closes.heard, fun room stays => ?_⟩
    refine closeEvent_view (x := setView _ (takenFrom f fs s)) (by simpa using room) fun c' due h => ?_
    exact stays c' due (by simpa using h)

end Sys2Proof.Machine
end

section
/-! PROOFS. An event that raises a health flag and touches nothing else that the closing stages look at: the flag asks for
an early STATUS where it read 0 (R144), and where that STATUS comes to stand (R143, R153). -/

namespace Sys2Proof.Machine

/-! ## The health octet (R145) -/

/-- Where a flag stands in the health octet. -/
def flagBit : TimedFlag → Nat
  | .rxOverrun => 7 | .lineErrors => 6 | .txCongested => 5 | .sensorInvalid => 4
  | .directionConflict => 3 | .incidentOverflow => 2 | .duplicateIndex => 1

/-- The octet whose bits, the highest first, are the eight flags. -/
theorem healthBits_bit : ∀ a b c d e f g h : Bool, ∀ n : Fin 8, (BitVec.ofNat 8
    ((if a then 128 else 0) + (if b then 64 else 0) + (if c then 32 else 0) + (if d then 16 else 0) +
      (if e then 8 else 0) + (if f then 4 else 0) + (if g then 2 else 0) + (if h then 1 else 0))).getLsbD n =
    [h, g, f, e, d, c, b, a].getD n false := by decide +kernel

theorem healthOctet_bit (s : State) (f : TimedFlag) :
    (healthOctet s).getLsbD (flagBit f) = (s.health.get f).isSome := by
  have bits := healthBits_bit s.health.rxOverrun.isSome s.health.lineErrors.isSome s.health.txCongested.isSome
    s.health.sensorInvalid.isSome s.health.directionConflict.isSome s.health.incidentOverflow.isSome
    s.health.duplicateIndex.isSome (lockoutPresent s)
  cases f with
  | rxOverrun => exact bits 7
  | lineErrors => exact bits 6
  | txCongested => exact bits 5
  | sensorInvalid => exact bits 4
  | directionConflict => exact bits 3
  | incidentOverflow => exact bits 2
  | duplicateIndex => exact bits 1

/-- A flag that is lit already stays lit. -/
theorem healthOctet_raise_lit {f : TimedFlag} {s : State} (h : s.health.get f ≠ none) :
    healthOctet (raiseFlag f s) = healthOctet s := by
  obtain ⟨t, lit⟩ := Option.ne_none_iff_exists'.1 h
  unfold healthOctet
  cases f <;> simp only [Health.get] at lit <;> simp only [raiseFlag, Health.set, lit, Option.isSome_some] <;> rfl

/-- A flag that read 0 reads 1 once raised. -/
theorem healthOctet_raise_dark {f : TimedFlag} {s : State} (h : s.health.get f = none) :
    healthOctet (raiseFlag f s) ≠ healthOctet s := fun e => by
  have bit := congrArg (fun o => BitVec.getLsbD o (flagBit f)) e
  rw [healthOctet_bit, healthOctet_bit, raiseFlag_health, Health.get_set_same, h] at bit
  cases bit

/-- A flag raised twice at one moment. -/
theorem raiseFlag_again {s : State} (h : s.health.get .txCongested = some (s.now + healthTime)) :
    raiseFlag .txCongested s = s := by
  change s.health.txCongested = some (s.now + healthTime) at h
  have same : s.health.set .txCongested (some (s.now + healthTime)) = s.health := by
    rw [← h]
    rfl
  unfold raiseFlag
  rw [same]

/-! ## Where an early STATUS comes to stand -/

/-- A STATUS placed so that the queue becomes `q`: the presence and spacing timers start and no early request stands
(R143). -/
def statusPlaced (q : List TxFrame) (s : State) : State :=
  { s with
    ba := ⟨some (s.now + (if s.sj.mode = .incident then 1000000 else 2000000)), some (s.now + 100000), false⟩
    li := { s.li with tx := q } }

/-- Bulletin Assembly as a placed STATUS leaves it. -/
def statusTimed (s : State) : State :=
  { s with ba := { presenceDue := some (s.now + presencePeriod s.sj.mode),
                   spacingDue := some (s.now + statusSpacingTime), early := false } }

theorem setTx_statusTimed (q : List TxFrame) (s : State) : setTx q (statusTimed s) = statusPlaced q s := by
  have period : presencePeriod s.sj.mode = if s.sj.mode = .incident then 1000000 else 2000000 := by
    cases s.sj.mode <;> rfl
  unfold statusTimed
  rw [period]
  rfl

theorem statusTimed_placed (s : State) : statusTimed s = statusPlaced s.li.tx s := setTx_statusTimed s.li.tx s

/-- A STATUS, of the last class, joins the tail of the whole queue (R152). -/
theorem insertTail_status {f : TxFrame} (h : bodyClass f.body = 2) (q : List TxFrame) :
    insertTail f q = q ++ [f] := by
  induction q with
  | nil => rfl
  | cons g gs ih =>
    have last : bodyClass g.body ≤ 2 := by cases g.body <;> simp [bodyClass]
    unfold insertTail
    rw [if_neg (by omega), ih]
    rfl

/-- A STATUS that takes the place of one that waits. -/
theorem placeStatus_at {s : State} {l r : List TxFrame} {y : TxFrame} (hm : s.sj.mode ≠ .configFault)
    (hq : s.li.tx = l ++ y :: r) (hy : bodyClass y.body = 2) (hl : ∀ z ∈ l, bodyClass z.body ≠ 2) :
    placeStatus s = statusPlaced (l ++ ⟨ownStatusBody s, y.attempts⟩ :: r) s := by
  rw [← setTx_statusTimed]
  exact place_replaces (s := statusTimed s) (ownStatusBody s) hm hq (by simpa [takesPlaceOf, ownStatusBody] using hy)
    fun z hz => by simpa [takesPlaceOf, ownStatusBody] using hl z hz

/-- A STATUS that finds none waiting joins the tail, or is refused. -/
theorem placeStatus_new {s : State} (hm : s.sj.mode ≠ .configFault) (hn : ∀ y ∈ s.li.tx, bodyClass y.body ≠ 2) :
    placeStatus s = joinTail (ownStatusBody s) (statusTimed s) := by
  have new : replaceIn (ownStatusBody s) s.li.tx = none := replaceIn_none.2 fun y hy => by
    simpa [takesPlaceOf, ownStatusBody] using hn y hy
  change place (ownStatusBody s) (statusTimed s) = _
  have mode : (statusTimed s).sj.mode ≠ .configFault := hm
  have tx : (statusTimed s).li.tx = s.li.tx := rfl
  unfold place
  rw [if_neg mode, tx, new]
  rfl

theorem placeStatus_tail {s : State} (hm : s.sj.mode ≠ .configFault)
    (hn : ∀ y ∈ s.li.tx, bodyClass y.body ≠ 2) (room : s.li.tx.length < 10) :
    placeStatus s = statusPlaced (s.li.tx ++ [⟨ownStatusBody s, 0⟩]) s := by
  rw [placeStatus_new hm hn, joinTail_room _ (statusTimed s) room, setTx_statusTimed, ← insertTail_status rfl]
  rfl

/-- A full queue takes no STATUS, and TX_CONGESTED, raised at the same event, stands (R152). -/
theorem placeStatus_refused {s : State} (hm : s.sj.mode ≠ .configFault)
    (hn : ∀ y ∈ s.li.tx, bodyClass y.body ≠ 2) (full : 10 ≤ s.li.tx.length)
    (lit : s.health.get .txCongested = some (s.now + healthTime)) :
    placeStatus s = statusPlaced s.li.tx s := by
  have refused : joinTail (ownStatusBody s) (statusTimed s) = raiseFlag .txCongested (statusTimed s) :=
    if_pos (show maxTx ≤ s.li.tx.length from full)
  rw [placeStatus_new hm hn, refused, raiseFlag_again (s := statusTimed s) lit, statusTimed_placed]

/-- An early STATUS that raises no flag asks for no other (R144). -/
theorem placeEarly_placed {s : State} {q : List TxFrame} (h : placeStatus s = statusPlaced q s) :
    placeEarly s = statusPlaced q s := by
  unfold placeEarly
  rw [h]
  exact if_pos rfl

/-! ## The event that raises the flag -/

section Raised

variable {s y : State} {f : TimedFlag} (hs : Settled s) (hy : Inert s y) (hh : y.health = s.health)
include hs hy hh

theorem follow_raised : follow s (raiseFlag f y) = raiseFlag f y := by
  have same : { raiseFlag f y with health := s.health } = y := by
    rw [← hh]
    rfl
  exact follow_inert hs (same ▸ hy)

/-- A raised flag that read 1 already changes nothing that is reported. -/
theorem closeEvent_lit (lit : s.health.get f ≠ none) : closeEvent s (raiseFlag f y) = raiseFlag f y :=
  closeEvent_inert hs { hy with health := (healthOctet_raise_lit (by rw [hh]; exact lit)).trans hy.health }

/-- In JOINING and CONFIG_FAULT no STATUS is asked for (R143). -/
theorem closeEvent_unreported (mode : sendsStatus s.sj.mode = false) :
    closeEvent s (raiseFlag f y) = raiseFlag f y := by
  have silent : sendsStatus (raiseFlag f y).sj.mode = false := by rw [raiseFlag_sj, hy.sj]; exact mode
  unfold closeEvent requestEarly
  rw [follow_raised hs hy hh, silent]
  rfl

section Dark

variable (dark : s.health.get f = none) (mode : sendsStatus s.sj.mode = true)
include dark mode

omit hs in
theorem requestEarly_raised : requestEarly s (raiseFlag f y) =
    match y.ba.spacingDue with
    | none => placeEarly (raiseFlag f y)
    | some _ => holdEarly (raiseFlag f y) := by
  have sends : sendsStatus (raiseFlag f y).sj.mode = true := by rw [raiseFlag_sj, hy.sj]; exact mode
  have report : reportOf s ≠ reportOf (raiseFlag f y) := fun e => by
    have octet : healthOctet s = healthOctet (raiseFlag f y) := congrArg Report.health e
    rw [← hy.health] at octet
    exact healthOctet_raise_dark (by rw [hh]; exact dark) octet.symm
  unfold requestEarly
  rw [sends, if_pos rfl, if_neg report]
  rfl

theorem closeEvent_held (spaced : y.ba.spacingDue ≠ none) :
    closeEvent s (raiseFlag f y) = holdEarly (raiseFlag f y) := by
  obtain ⟨t, due⟩ := Option.ne_none_iff_exists'.1 spaced
  unfold closeEvent
  rw [follow_raised hs hy hh, requestEarly_raised hy hh dark mode, due]

theorem closeEvent_early (free : y.ba.spacingDue = none) :
    closeEvent s (raiseFlag f y) = placeEarly (raiseFlag f y) := by
  unfold closeEvent
  rw [follow_raised hs hy hh, requestEarly_raised hy hh dark mode, free]

end Dark

end Raised

end Sys2Proof.Machine
end

section
/-! PROOFS. A send starts once the line has been idle long enough, and ends when its frame is read back whole (O46). -/

namespace Sys2Proof.Machine

theorem sendsStatus_of_mode {m : Mode} (h : m = .quiet ∨ m = .incident ∨ m = .maintenance) : sendsStatus m = true := by
  rcases h with rfl | rfl | rfl <;> rfl

theorem not_fault_of_sends {m : Mode} (h : m = .quiet ∨ m = .incident ∨ m = .maintenance) : m ≠ .configFault := by
  rcases h with rfl | rfl | rfl <;> simp

/-! ## The start of a send (R154) -/

/-- The defer of the head frame: by STATION at the first try, else the back-off of R157. -/
theorem deferBits_eq (s : State) (n : Nat) : deferBits s n =
    if n = 0 then 4 * (s.station % 8) else 20 * (1 + (s.sj.serial.toNat % 256 + n) % 16) := by
  have low : (s.sj.serial.extractLsb' 0 8).toNat = s.sj.serial.toNat % 256 := by simp
  unfold deferBits
  rw [low, Nat.mul_comm]

theorem sendDue_eq {s : State} {x : TxFrame} {rest : List TxFrame} (hq : s.li.tx = x :: rest)
    (idle : s.li.sending = none) (held : s.sj.held = false)
    (mode : s.sj.mode = .quiet ∨ s.sj.mode = .incident ∨ s.sj.mode = .maintenance) :
    sendDue s = some (s.li.idleSince + (16 +
      (if x.attempts = 0 then 4 * (s.station % 8)
       else 20 * (1 + (s.sj.serial.toNat % 256 + x.attempts) % 16))) * s.bit) := by
  have listens : receiving s = true := by
    unfold receiving
    rw [held, idle]
    rfl
  have sends : sendsFrames s.sj.mode = true := by rcases mode with m | m | m <;> rw [m] <;> rfl
  unfold sendDue
  rw [hq]
  dsimp only
  rw [listens, sends, deferBits_eq]
  rfl

/-- The state with the head frame `x` going out since now, `rest` waiting and nothing in assembly. -/
def sendStarted (x : TxFrame) (rest : List TxFrame) (s : State) : State :=
  { s with li := { s.li with tx := rest, sending := some ⟨x, s.now⟩, synced := false, assembly := [] } }

theorem startSend_clear {s : State} {x : TxFrame} {rest : List TxFrame} (hq : s.li.tx = x :: rest)
    (clear : s.li.assembly = []) : startSend s = sendStarted x rest s := by
  unfold startSend sendStarted
  rw [hq]
  dsimp only
  rw [clear]
  simp only [List.isEmpty_nil, if_true]
  rw [clear]

/-- A frame in assembly is discarded with LINE_ERRORS (R150). -/
theorem startSend_cuts {s : State} {x : TxFrame} {rest : List TxFrame} (hq : s.li.tx = x :: rest)
    (part : s.li.assembly ≠ []) : startSend s = raiseFlag .lineErrors (sendStarted x rest s) := by
  have busy : s.li.assembly.isEmpty = false := by simpa using part
  unfold startSend
  rw [hq]
  dsimp only
  rw [busy]
  rfl

theorem inert_sendStarted (x : TxFrame) (rest : List TxFrame) (t : Time) (s : State) :
    Inert s (sendStarted x rest (reachTime t s)) :=
  ⟨rfl, rfl, rfl, rfl, rfl, rfl, rfl, id, id, rfl, rfl, rfl⟩

/-! ## The end of a send (R155) -/

theorem sendSuccess_next {s : State} {x : Sending} (h : s.li.sending = some x) : exec .sendSuccess s =
    .next (closeEvent s (claimSent x.frame.body
      (endAttempt (reachTime (x.since + 10 * (frameOctets s.station x.frame.body).length * s.bit) s)))) := by
  change execSendSuccess s = _
  unfold execSendSuccess
  rw [h]
  rfl

theorem claimSent_other {b : Body} {s : State}
    (h : ∀ c, s.cu.own ≠ .settling c none ∨ claimNumber b ≠ some c.number) : claimSent b s = s := by
  unfold claimSent
  split
  · rename_i n c number own
    refine if_neg fun e => ?_
    rcases h c with h | h
    · exact h own
    · exact h (e ▸ number)
  · rfl

/-- The CLAIM of the own SETTLING claim, sent, starts its settle timer (R99). -/
theorem claimSent_starts_settling {b : Body} {s : State} {c : Claim} (own : s.cu.own = .settling c none)
    (number : claimNumber b = some c.number) :
    claimSent b s = setOwn (.settling c (some (s.now + 300000))) s := by
  unfold claimSent
  rw [number, own]
  exact if_pos rfl

/-- Settles O46: a start that cuts nothing off and an end of a send are nothing that follows an event looks at; a start
that cuts a frame off raises LINE_ERRORS, which asks for an early STATUS where it read 0. -/
theorem sendStartAndSuccess : Obligations.SendStartAndSuccess := by
  refine ⟨fun s x rest hs hq idle held mode => ?_, fun s x hs sending => ?_⟩
  · intro t sent cut
    have due := sendDue_eq hq idle held mode
    have inert := inert_sendStarted x rest (s.li.idleSince + (16 +
      (if x.attempts = 0 then 4 * (s.station % 8)
       else 20 * (1 + (s.sj.serial.toNat % 256 + x.attempts) % 16))) * s.bit) s
    refine ⟨fun clear => onTimer_eq due hs (startSend_clear hq clear) inert, fun part => ?_⟩
    have next : exec .sendStart s = .next (closeEvent s cut) := by
      change onTimer (sendDue s) startSend s = _
      rw [due]
      exact congrArg (fun z => Host.Outcome.next (closeEvent s z)) (startSend_cuts hq part)
    rw [next]
    refine ⟨fun lit => congrArg _ (closeEvent_lit (f := .lineErrors) hs inert rfl lit), fun dark => ⟨fun spaced => ?_,
      fun free => ?_⟩⟩
    · exact congrArg _ (closeEvent_held (f := .lineErrors) hs inert rfl dark (sendsStatus_of_mode mode) spaced)
    · intro body placed
      have early : closeEvent s cut = placeEarly cut :=
        closeEvent_early (f := .lineErrors) hs inert rfl dark (sendsStatus_of_mode mode) free
      rw [early]
      refine ⟨fun new room => congrArg _ ?_, fun l y r split first status => congrArg _ ?_⟩
      · exact placeEarly_placed (placeStatus_tail (s := cut) (not_fault_of_sends mode) new room)
      · exact placeEarly_placed (placeStatus_at (s := cut) (not_fault_of_sends mode) split status first)
  · intro t li
    rw [sendSuccess_next sending]
    refine ⟨fun other => congrArg _ ?_, fun c own number => congrArg _ ?_⟩
    · rw [claimSent_other (s := endAttempt (reachTime _ s)) other]
      exact closeEvent_inert hs ⟨rfl, rfl, rfl, rfl, rfl, rfl, rfl, id, id, rfl, rfl, rfl⟩
    · rw [claimSent_starts_settling (s := endAttempt (reachTime _ s)) own number]
      refine closeEvent_inert hs ⟨rfl, rfl, rfl, rfl, rfl, rfl, ?_, id, id, rfl, rfl, rfl⟩
      rw [own]
      rfl

end Sys2Proof.Machine
end

section
/-! PROOFS. A collided frame returns to the head of its class, or is dropped, discarded or superseded (O47). -/

namespace Sys2Proof.Machine

/-! ## The end of the attempt (R156) -/

theorem collision_next {s : State} {x : Sending} {k : Nat} {o : Octet} {back : BitVec 10}
    (sending : s.li.sending = some x) (sent : (frameOctets s.station x.frame.body)[k]? = some o)
    (differs : back ≠ characterBits o) : exec (.collision k back) s =
      .next (closeEvent s (collided { x.frame with attempts := x.frame.attempts + 1 }
        (endAttempt (reachTime (x.since + 10 * (k + 1) * s.bit) s)))) := by
  change execCollision k back s = _
  unfold execCollision
  rw [sending]
  dsimp only
  rw [show (sendingOctets s x)[k]? = some o from sent]
  dsimp only
  rw [if_neg differs]
  rfl

/-- The attempt is over at `t`, and `q` waits. -/
def attemptOver (t : Time) (q : List TxFrame) (s : State) : State := setTx q (endAttempt (reachTime t s))

theorem inert_attemptOver (t : Time) (q : List TxFrame) (s : State) : Inert s (attemptOver t q s) :=
  ⟨rfl, rfl, rfl, rfl, rfl, rfl, rfl, id, id, rfl, rfl, rfl⟩

/-- A collided frame that does no more than change the queue ends the event. -/
theorem closeEvent_attemptOver {s : State} (hs : Settled s) (t : Time) (q : List TxFrame) :
    closeEvent s (attemptOver t q s) = attemptOver t q s := closeEvent_inert hs (inert_attemptOver t q s)

/-! ## What becomes of the frame, case by case (R156) -/

theorem supersededIn_at (b : Body) (n : Nat) {l r : List TxFrame} {y : TxFrame}
    (hy : takesPlaceOf y.body b = true) (hl : ∀ z ∈ l, takesPlaceOf z.body b = false) :
    supersededIn b n (l ++ y :: r) = some (l ++ { y with attempts := max y.attempts n } :: r) := by
  induction l with
  | nil => simp [supersededIn, hy]
  | cons z zs ih => simp [supersededIn, hl z (by simp), ih fun w hw => hl w (by simp [hw])]

theorem collided_exhausted {f : TxFrame} (s : State) (status : bodyClass f.body = 2) (tries : 8 ≤ f.attempts) :
    collided f s = raiseFlag .txCongested s :=
  if_pos ⟨by unfold isStatus; rw [status]; rfl, tries⟩

section Retried

variable {f : TxFrame} {s : State} (retried : bodyClass f.body ≠ 2 ∨ f.attempts < 8)
include retried

theorem not_exhausted : ¬ (isStatus f.body = true ∧ 8 ≤ f.attempts) := by
  rintro ⟨status, tries⟩
  unfold isStatus at status
  rcases retried with h | h
  · exact h (by simpa using status)
  · omega

theorem collided_inFault (mode : s.sj.mode = .configFault) : collided f s = s := by
  unfold collided
  rw [if_neg (not_exhausted retried), if_pos mode]

variable (mode : s.sj.mode ≠ .configFault)
include mode

theorem collided_superseded {q : List TxFrame} (h : supersededIn f.body f.attempts s.li.tx = some q) :
    collided f s = setTx q s := by
  unfold collided
  rw [if_neg (not_exhausted retried), if_neg mode, h]

variable (unsuperseded : ∀ y ∈ s.li.tx, takesPlaceOf y.body f.body = false)
include unsuperseded

/-- A CLAIM whose WITHDRAW waits goes with it. -/
theorem collided_withdrawn {n : BitVec 8} {l r : List TxFrame} {y : TxFrame} (number : claimNumber f.body = some n)
    (hq : s.li.tx = l ++ y :: r) (hy : isWithdrawNo n y = true) (hl : ∀ z ∈ l, isWithdrawNo n z = false) :
    collided f s = setTx (l ++ r) s := by
  have waits : s.li.tx.any (isWithdrawNo n) = true := List.any_eq_true.2 ⟨y, by rw [hq]; simp, hy⟩
  unfold collided
  rw [if_neg (not_exhausted retried), if_neg mode, supersededIn_none.2 unsuperseded]
  dsimp only
  rw [number]
  dsimp only
  rw [if_pos waits, hq, removeFirst_at _ hy hl]

theorem collided_returns (unwithdrawn : ∀ n, claimNumber f.body = some n → ∀ y ∈ s.li.tx, isWithdrawNo n y = false) :
    collided f s = returnFrame f s := by
  unfold collided
  rw [if_neg (not_exhausted retried), if_neg mode, supersededIn_none.2 unsuperseded]
  dsimp only
  split
  · rename_i n number
    refine if_neg ?_
    rw [Bool.not_eq_true, List.any_eq_false]
    exact fun y hy => by rw [unwithdrawn n number y hy]; simp
  · rfl

end Retried

theorem returnFrame_room {f : TxFrame} {s : State} (room : s.li.tx.length < 10) :
    returnFrame f s = setTx (insertHead f s.li.tx) s := if_neg (Nat.not_le.2 room)

theorem returnFrame_full {f : TxFrame} {s : State} (full : 10 ≤ s.li.tx.length) :
    returnFrame f s = claimNotSent f.body (raiseFlag .txCongested s) := if_pos full

/-- A frame dropped that is no CLAIM of the own SETTLING claim raises the flag alone (R152). -/
theorem claimNotSent_other {b : Body} {s : State}
    (h : ∀ c due, s.cu.own = .settling c due → claimNumber b ≠ some c.number) : claimNotSent b s = s := by
  unfold claimNotSent
  split
  · rename_i n c due number own
    refine if_neg fun e => ?_
    exact h c due own (e ▸ number)
  · rfl

theorem claimNotSent_own {b : Body} {s : State} {c : Claim} {due : Option Time} (own : s.cu.own = .settling c due)
    (number : claimNumber b = some c.number) : claimNotSent b s = setOwn .none (allEarly s) := by
  unfold claimNotSent
  rw [number, own]
  exact if_pos rfl

/-! ## A frame dropped with TX_CONGESTED -/

/-- What a frame dropped at `t` leaves, TX_CONGESTED raised. -/
def droppedAt (t : Time) (s : State) : State := raiseFlag .txCongested (attemptOver t s.li.tx s)

section Dropped

variable {s : State} {t : Time} (hs : Settled s)
include hs

theorem closeEvent_dropped_unasked
    (h : s.health.txCongested ≠ none ∨ s.sj.mode = .joining ∨ s.sj.mode = .configFault) :
    closeEvent s (droppedAt t s) = droppedAt t s := by
  rcases h with lit | mode
  · exact closeEvent_lit (f := .txCongested) hs (inert_attemptOver t s.li.tx s) rfl lit
  · exact closeEvent_unreported hs (inert_attemptOver t s.li.tx s) rfl (by rcases mode with m | m <;> rw [m] <;> rfl)

section Asked

variable (dark : s.health.txCongested = none)
  (mode : s.sj.mode = .quiet ∨ s.sj.mode = .incident ∨ s.sj.mode = .maintenance)
include dark mode

theorem closeEvent_dropped_held (spaced : s.ba.spacingDue ≠ none) :
    closeEvent s (droppedAt t s) = holdEarly (droppedAt t s) :=
  closeEvent_held (f := .txCongested) hs (inert_attemptOver t s.li.tx s) rfl dark (sendsStatus_of_mode mode) spaced

variable (free : s.ba.spacingDue = none)
include free

theorem closeEvent_dropped_early : closeEvent s (droppedAt t s) = placeEarly (droppedAt t s) :=
  closeEvent_early (f := .txCongested) hs (inert_attemptOver t s.li.tx s) rfl dark (sendsStatus_of_mode mode) free

theorem closeEvent_dropped_new (new : ∀ y ∈ s.li.tx, bodyClass y.body ≠ 2) :
    closeEvent s (droppedAt t s) = statusPlaced (if s.li.tx.length < 10
      then s.li.tx ++ [⟨ownStatusBody (droppedAt t s), 0⟩] else s.li.tx) (droppedAt t s) := by
  have mode' : (droppedAt t s).sj.mode ≠ .configFault := not_fault_of_sends mode
  rw [closeEvent_dropped_early hs dark mode free]
  by_cases room : s.li.tx.length < 10
  · rw [if_pos room]
    exact placeEarly_placed (placeStatus_tail mode' new room)
  · rw [if_neg room]
    exact placeEarly_placed (placeStatus_refused mode' new (Nat.not_lt.1 room) rfl)

theorem closeEvent_dropped_at {l r : List TxFrame} {y : TxFrame} (hq : s.li.tx = l ++ y :: r)
    (hy : bodyClass y.body = 2) (hl : ∀ z ∈ l, bodyClass z.body ≠ 2) : closeEvent s (droppedAt t s) =
      statusPlaced (l ++ ⟨ownStatusBody (droppedAt t s), y.attempts⟩ :: r) (droppedAt t s) := by
  have mode' : (droppedAt t s).sj.mode ≠ .configFault := not_fault_of_sends mode
  rw [closeEvent_dropped_early hs dark mode free]
  exact placeEarly_placed (placeStatus_at mode' hq hy hl)

end Asked

end Dropped

/-! ## A CLAIM dropped on its return -/

/-- An event that leaves the mode by the list, no entry to make and the own claim with its slot, and changes nothing that
calls for a recompute: the claim test finds what the event's own rule left. -/
theorem beforeClaim_self {s x : State} (mode : ModeByList x) (entry : maintReady x = false) (stands : ClaimStands x)
    (hj : x.sj = s.sj) (hi : x.iu = s.iu) (hp : x.pt = s.pt) (hc : x.su.heat = s.su.heat) (hf : x.fs = s.fs) :
    beforeClaim s x = x := by
  have before : beforeEntry s x = x := by
    change followSlot (recomputeIfDue s (beforePlan s x)) = x
    rw [beforePlan_self mode (governing_congr (by rw [hj]) (by rw [hi])),
      recomputeIfDue_same hj hi hp hc (fun k => by rw [slot_of_fs hf]), stands.followSlot_eq]
  rw [beforeClaim_waits (by rw [before]; exact entry), before]

/-- A full queue takes no CLAIM: TX_CONGESTED is raised and no claim is held (R91, R152). -/
theorem testClaim_full {z : State} (own : z.cu.own = .none) (full : 10 ≤ z.li.tx.length)
    (lit : z.health.get .txCongested = some (z.now + healthTime)) :
    (testClaim z).cu.own = .none ∧ (testClaim z).li = z.li ∧ (testClaim z).health = z.health := by
  cases test : claimTest z with
  | none =>
    unfold testClaim
    rw [test]
    exact ⟨own, rfl, rfl⟩
  | some p =>
    obtain ⟨k, a, b⟩ := p
    have refused : testClaim z = setOwn .none (allEarly (claiming z (nextClaim z k a b))) := by
      rw [testClaim_placed test]
      refine (if_pos (show maxTx ≤ z.li.tx.length from full)).trans ?_
      unfold refuseFrame
      rw [raiseFlag_again (s := claiming z _) lit]
      exact claimNotSent_own (s := claiming z _) rfl rfl
    rw [refused]
    exact ⟨rfl, rfl, rfl⟩

/-- A STATUS that finds the queue full takes the place of one that waits, or is refused: the queue stays as long. -/
theorem placeStatus_full {z : State} (mode : z.sj.mode ≠ .configFault) (full : 10 ≤ z.li.tx.length)
    (lit : z.health.get .txCongested = some (z.now + healthTime)) :
    ∃ q, placeStatus z = statusPlaced q z ∧ q.length = z.li.tx.length := by
  by_cases new : ∀ y ∈ z.li.tx, bodyClass y.body ≠ 2
  · exact ⟨_, placeStatus_refused mode new full lit, rfl⟩
  · have waits : replaceIn (ownStatusBody z) z.li.tx ≠ none := fun e => new fun y hy => by
      simpa [takesPlaceOf, ownStatusBody] using replaceIn_none.1 e y hy
    obtain ⟨q, hq⟩ := Option.ne_none_iff_exists'.1 waits
    obtain ⟨l, y, r, split, takes, rfl⟩ := replaceIn_split hq
    refine ⟨_, ?_, replaceIn_length _ _ _ hq⟩
    rw [← setTx_statusTimed]
    change place (ownStatusBody z) (statusTimed z) = _
    unfold place
    rw [if_neg (show (statusTimed z).sj.mode ≠ .configFault from mode), show (statusTimed z).li.tx = z.li.tx from rfl, hq]
    rfl

theorem requestEarly_full (b : State) {z : State} (mode : z.sj.mode ≠ .configFault) (full : 10 ≤ z.li.tx.length)
    (lit : z.health.get .txCongested = some (z.now + healthTime)) :
    (requestEarly b z).health = z.health ∧ (requestEarly b z).li.tx.length = z.li.tx.length := by
  obtain ⟨q, placed, length⟩ := placeStatus_full mode full lit
  unfold requestEarly
  split
  · split
    · exact ⟨rfl, rfl⟩
    · split
      · rw [placeEarly_placed placed]
        exact ⟨rfl, length⟩
      · exact ⟨rfl, rfl⟩
  · exact ⟨rfl, rfl⟩

/-- What the dropped CLAIM of the own SETTLING claim leaves: no claim is held, and every LATE entry is EARLY (R97). -/
def claimDropped (t : Time) (s : State) : State := setOwn .none (allEarly (droppedAt t s))

/-- The CLAIM of the own SETTLING claim, dropped on its return, ends that claim; the queue, full, takes no other CLAIM
at that event. -/
theorem closeEvent_claimDropped {s : State} (hs : Settled s) (t : Time) (mode : s.sj.mode ≠ .configFault)
    (full : 10 ≤ s.li.tx.length) :
    (closeEvent s (claimDropped t s)).cu.own = .none ∧
      (closeEvent s (claimDropped t s)).health.get .txCongested = some (max s.now t + 60000000) ∧
      (closeEvent s (claimDropped t s)).li.tx.length = s.li.tx.length ∧
      toldFrames (closeEvent s (claimDropped t s)).li.tx = toldFrames s.li.tx := by
  have claim : beforeClaim s (claimDropped t s) = claimDropped t s :=
    beforeClaim_self hs.modeByList hs.noEntryDue (claimStands_of_none rfl) rfl rfl rfl rfl rfl
  obtain ⟨own, li, health⟩ := testClaim_full (z := claimDropped t s) rfl full rfl
  have rest := lineRest_testClaim (claimDropped t s)
  have tx : (testClaim (claimDropped t s)).li.tx = s.li.tx := by rw [li]; rfl
  have lit : (testClaim (claimDropped t s)).health.get .txCongested = some (max s.now t + 60000000) :=
    congrArg (Health.get · .txCongested) health
  have now : (testClaim (claimDropped t s)).now = max s.now t := rest.now
  obtain ⟨kept, length⟩ := requestEarly_full s (z := followFlash s (testClaim (claimDropped t s)))
    (fun e => mode ((congrArg Sj.mode rest.sj).symm.trans e)) (full.trans_eq (congrArg List.length tx).symm)
    (lit.trans (by rw [← now]; rfl))
  obtain ⟨told, cu⟩ := requestEarly_rest s (followFlash s (testClaim (claimDropped t s)))
  rw [closeEvent_eq, claim]
  exact ⟨(congrArg Cu.own cu).trans own, (congrArg (Health.get · .txCongested) kept).trans lit,
    length.trans (congrArg List.length tx), told.trans (congrArg toldFrames tx)⟩

/-- Settles O47, by the cases of R156 in their order. -/
theorem collisionReturnsTheFrame : Obligations.CollisionReturnsTheFrame := by
  intro s x k o back hs sending sent differs t n after congested body placed dropped
  have next := collision_next sending sent differs
  have drops (h : collided ⟨x.frame.body, n⟩ (after s.li.tx) = congested) : dropped := by
    have next : exec (.collision k back) s = .next (closeEvent s congested) := by
      rw [next, ← h]
      rfl
    exact ⟨fun unasked => next.trans (congrArg _ (closeEvent_dropped_unasked hs unasked)),
      fun dark mode => ⟨fun spaced => next.trans (congrArg _ (closeEvent_dropped_held hs dark mode spaced)),
        fun free => ⟨fun new => next.trans (congrArg _ (closeEvent_dropped_new hs dark mode free new)),
          fun l y r split first status =>
            next.trans (congrArg _ (closeEvent_dropped_at hs dark mode free split status first))⟩⟩⟩
  have queues {q : List TxFrame} (h : collided ⟨x.frame.body, n⟩ (after s.li.tx) = after q) :
      exec (.collision k back) s = .next (after q) := by
    rw [next]
    exact congrArg _ ((congrArg (closeEvent s) h).trans (closeEvent_attemptOver hs _ q))
  have returns := collided_returns (f := ⟨x.frame.body, n⟩) (s := after s.li.tx)
  have refuses := returnFrame_full (f := ⟨x.frame.body, n⟩) (s := after s.li.tx)
  refine ⟨fun status tries => drops (collided_exhausted _ status tries), fun retried => ⟨fun fault => ?_,
    fun mode => ⟨fun l y r split takes first => ?_, fun unsuperseded => ⟨fun m l y r number split hy first => ?_,
      fun unwithdrawn => ⟨fun room => ?_, fun full => ⟨fun other => ?_, fun c due own number => ?_⟩⟩⟩⟩⟩⟩
  · exact queues (collided_inFault (s := after s.li.tx) retried fault)
  · refine queues (collided_superseded (s := after s.li.tx) retried mode ?_)
    rw [show (after s.li.tx).li.tx = l ++ y :: r from split]
    exact supersededIn_at _ _ takes first
  · exact queues (collided_withdrawn (f := ⟨x.frame.body, n⟩) (s := after s.li.tx) retried mode unsuperseded number
      split hy first)
  · exact queues ((returns retried mode unsuperseded unwithdrawn).trans (returnFrame_room room))
  · exact drops ((returns retried mode unsuperseded unwithdrawn).trans ((refuses full).trans
      (claimNotSent_other (s := congested) other)))
  · have ended : collided ⟨x.frame.body, n⟩ (after s.li.tx) = claimDropped (x.since + 10 * (k + 1) * s.bit) s :=
      (returns retried mode unsuperseded unwithdrawn).trans ((refuses full).trans
        (claimNotSent_own (s := congested) own number))
    exact ⟨_, next.trans (congrArg (fun z => Host.Outcome.next (closeEvent s z)) ended),
      closeEvent_claimDropped hs _ mode full⟩

end Sys2Proof.Machine
end

section
/-! PROOFS. The claim test and the claim spacing timer: where a CLAIM is placed and where none can be (O40). -/

namespace Sys2Proof.Machine

/-! ## The claim test (R98) -/

/-- The waiting slot is the lowest-numbered one in START_WAIT (R65). -/
theorem waitingSlot_lowest {s : State} {k : SlotNo} (hk : isStartWait (s.slot k).st = true)
    (low : ∀ j, isStartWait (s.slot j).st = true → slotNumber k ≤ slotNumber j) : waitingSlot s = some k := by
  have below (j : SlotNo) (h : slotNumber j < slotNumber k) : isStartWait (s.slot j).st = false := by
    rw [Bool.eq_false_iff]
    exact fun e => absurd (low j e) (Nat.not_le.2 h)
  unfold waitingSlot allSlots
  cases k with
  | fs1 => simp [hk]
  | fs2 => simp [hk, below .fs1 (by decide)]
  | fs3 => simp [hk, below .fs1 (by decide), below .fs2 (by decide)]
  | fs4 => simp [hk, below .fs1 (by decide), below .fs2 (by decide), below .fs3 (by decide)]

theorem waitingSlot_none {s : State} (h : ∀ k, isStartWait (s.slot k).st = false) : waitingSlot s = none := by
  unfold waitingSlot
  rw [List.find?_eq_none]
  intro k _
  rw [h k]
  simp

theorem claimTest_met {s : State} {k : SlotNo} {cls rank : Nat} (own : s.cu.own = .none)
    (waits : waitingSlot s = some k) (plan : s.tp.classRank = some (cls, rank)) (mode : s.sj.mode = .incident)
    (governed : (governing s).isSome = true) (entry : s.fs.maintPending = false) (few : s.cu.view.length < 2)
    (free : s.cu.spacingDue = none) : claimTest s = some (k, cls, rank) := by
  unfold claimTest
  rw [own, waits, plan]
  exact if_pos ⟨mode, governed, entry, few, free⟩

theorem claimTest_of_no_wait {s : State} (h : waitingSlot s = none) : claimTest s = none := by
  cases test : claimTest s with
  | none => rfl
  | some p =>
    obtain ⟨-, waits, -⟩ := claimTest_some (k := p.1) (a := p.2.1) (b := p.2.2) test
    rw [h] at waits
    cases waits

/-- A CLAIM placed in a queue with room (R99). -/
theorem testClaim_room {s : State} {k : SlotNo} {a b : Nat} (h : claimTest s = some (k, a, b))
    (room : s.li.tx.length < 10) : testClaim s =
      setTx (insertTail ⟨.claim s.sect (nextClaim s k a b), 0⟩ s.li.tx) (claiming s (nextClaim s k a b)) :=
  (testClaim_placed h).trans (joinTail_room _ (claiming s _) room)

/-- Where nothing before the claim test changes what the event's own rule left, no CLAIM is to be placed and nothing
reported has changed, the event ends with its own effect. -/
theorem closeEvent_stands {s x : State} (claim : beforeClaim s x = x) (test : claimTest x = none)
    (slots : x.fs.slots = s.fs.slots) (report : reportOf s = reportOf x) : closeEvent s x = x := by
  have tested : testClaim x = x := by
    unfold testClaim
    rw [test]
  rw [closeEvent_eq, claim, tested, followFlash_same slots]
  unfold requestEarly
  rw [if_pos report, ite_self]

/-- A state whose claim settles for a slot that waits, in INCIDENT with no entry pending, has nothing to follow before
the claim test. -/
theorem beforeClaim_claiming {s : State} {k : SlotNo} {a b : Nat} (test : claimTest s = some (k, a, b))
    (q : List TxFrame) : beforeClaim s (setTx q (claiming s (nextClaim s k a b))) =
      setTx q (claiming s (nextClaim s k a b)) := by
  obtain ⟨-, waits, -, mode, governed, entry, -, -⟩ := claimTest_some test
  obtain ⟨g, hg⟩ := Option.isSome_iff_exists.1 governed
  have active : anyActive (setTx q (claiming s (nextClaim s k a b))) = true := anyActive_of_governing hg
  have incident : (setTx q (claiming s (nextClaim s k a b))).sj.mode = .incident := mode
  have list : ModeByList (setTx q (claiming s (nextClaim s k a b))) := by
    unfold ModeByList
    rw [incident, active]
    simp
  have stands : ClaimStands (setTx q (claiming s (nextClaim s k a b))) := by
    unfold ClaimStands
    rw [incident]
    exact ⟨waitingSlot_some waits, by simp⟩
  exact beforeClaim_self list (maintReady_of_not_pending entry) stands rfl rfl rfl rfl rfl

/-- The CLAIM_PLACEMENT at which the claim test is met. -/
theorem claimPlacement_next {s : State} {k : SlotNo} {a b : Nat} (test : claimTest s = some (k, a, b))
    (room : s.li.tx.length < 10) : exec .claimPlacement s = .next
      (setTx (insertTail ⟨.claim s.sect (nextClaim s k a b), 0⟩ s.li.tx) (claiming s (nextClaim s k a b))) := by
  have next : exec .claimPlacement s = .next (closeEvent s (testClaim s)) := by
    change onReady (claimTest s).isSome testClaim s = _
    rw [test]
    rfl
  have report (q : List TxFrame) : reportOf s = reportOf (setTx q (claiming s (nextClaim s k a b))) := rfl
  have settles (q : List TxFrame) : claimTest (setTx q (claiming s (nextClaim s k a b))) = none :=
    claimTest_of_own (by simp [claiming])
  rw [next, testClaim_room test room, closeEvent_stands (beforeClaim_claiming test _) (settles _) rfl (report _)]

/-! ## The spacing timer (R98, R99) -/

/-- The spacing timer stops. -/
def unspaced (s : State) : State := { s with cu := { s.cu with spacingDue := none } }

theorem spacingExpiry_next {s : State} {t : Time} (due : s.cu.spacingDue = some t) :
    exec .claimSpacingExpiry s = .next (closeEvent s (unspaced (reachTime t s))) := by
  change onTimer s.cu.spacingDue unspaced s = _
  rw [due]
  rfl

theorem beforeClaim_unspaced {s : State} (hs : Settled s) (t : Time) :
    beforeClaim s (unspaced (reachTime t s)) = unspaced (reachTime t s) :=
  beforeClaim_self hs.modeByList hs.noEntryDue hs.claimStands rfl rfl rfl rfl rfl

/-- With no slot in START_WAIT the expiry stops the timer and does nothing else. -/
theorem spacingExpiry_idle {s : State} {t : Time} (hs : Settled s) (due : s.cu.spacingDue = some t)
    (idle : ∀ k, isStartWait (s.slot k).st = false) :
    exec .claimSpacingExpiry s = .next (unspaced (reachTime t s)) := by
  have test : claimTest (unspaced (reachTime t s)) = none :=
    claimTest_of_no_wait (waitingSlot_none (s := unspaced (reachTime t s)) idle)
  rw [spacingExpiry_next due, closeEvent_stands (beforeClaim_unspaced hs t) test rfl rfl]

/-- Where a CLAIM can be placed at the expiry, the Claim Unit ends the event with it SETTLING. -/
theorem spacingExpiry_claims {s : State} {t : Time} {k : SlotNo} {a b : Nat} (hs : Settled s)
    (test : claimTest (unspaced (reachTime t s)) = some (k, a, b)) (room : s.li.tx.length < 10) :
    (closeEvent s (unspaced (reachTime t s))).cu =
      (claiming (unspaced (reachTime t s)) (nextClaim (unspaced (reachTime t s)) k a b)).cu := by
  rw [closeEvent_cu, beforeClaim_unspaced hs, testClaim_room test room]
  rfl

end Sys2Proof.Machine
end

section
/-! PROOFS. While the claim spacing timer runs no command but its expiry lets a new claim settle (O40): what each command's
own effect makes of the own claim and of that timer, carried through what follows it. -/

namespace Sys2Proof.Machine

/-! ## No new claim -/

/-- Any claim that settles in `x` settled in `s`, and the spacing timer stands. -/
structure NoNewClaim (s x : State) : Prop where
  settling : ∀ c due, x.cu.own = .settling c due → ∃ due', s.cu.own = .settling c due'
  spacing : x.cu.spacingDue = s.cu.spacingDue

theorem NoNewClaim.of_cu {s x : State} (h : x.cu = s.cu) : NoNewClaim s x :=
  ⟨fun _ due ho => ⟨due, by rw [← h]; exact ho⟩, by rw [h]⟩

theorem NoNewClaim.refl (s : State) : NoNewClaim s s := .of_cu rfl

theorem NoNewClaim.trans {s t u : State} (h : NoNewClaim s t) (g : NoNewClaim t u) : NoNewClaim s u :=
  ⟨fun c due ho => by
    obtain ⟨due', ho'⟩ := g.settling c due ho
    exact h.settling c due' ho', g.spacing.trans h.spacing⟩

/-- The own claim stands or is over. -/
theorem NoNewClaim.of_own {s x : State} (own : x.cu.own = s.cu.own ∨ x.cu.own = .none)
    (spacing : x.cu.spacingDue = s.cu.spacingDue) : NoNewClaim s x := by
  refine ⟨fun c due ho => ?_, spacing⟩
  rcases own with own | own
  · exact ⟨due, own ▸ ho⟩
  · rw [own] at ho; cases ho

theorem IuRest.noNewClaim {s x : State} (h : IuRest s x) : NoNewClaim s x := .of_cu h.cu

/-! ## Effects that leave the Claim Unit -/

theorem alarmEvent_cu (s : State) : (alarmEvent s).cu = s.cu := by
  unfold alarmEvent
  split
  · rfl
  · exact (iuRest_actOnAlarm s).cu
  · exact (iuRest_actOnAlarm s).cu
  · exact (iuRest_actOnAlarm s).cu
  · rfl

theorem takeSample_cu (x : Sensor) (v : Option Int) (s : State) : (takeSample x v s).cu = s.cu := by
  have noted (r : Reading) (s : State) : (noteInvalid v r s).cu = s.cu := by
    unfold noteInvalid
    split <;> rfl
  have stepped (s : State) : (heatAlarmStep v s).cu = s.cu := by
    unfold heatAlarmStep
    split
    · split
      · exact alarmEvent_cu _
      · rfl
    · rfl
  cases x with
  | heat => exact (stepped _).trans (noted _ _)
  | opacity => exact noted _ _
  | velocity => exact noted _ _

theorem directionCommand_cu (d : Direction) (o : Bool) (s : State) : (directionCommand d o s).cu = s.cu := by
  unfold directionCommand
  split
  · rfl
  · split
    · exact (iuRest_triggerReannounce _ _).cu
    · rfl

theorem standDown_cu (s : State) : (standDown s).cu = s.cu := by
  unfold standDown
  split
  · rfl
  · exact (iuRest_placeEnd _ _).cu

theorem commandEdge_cu {act : State → State} (h : ∀ s, (act s).cu = s.cu) (s : State) :
    (commandEdge act s).cu = s.cu := by
  unfold commandEdge
  split
  · exact h _
  · exact h _
  · exact h _
  · rfl
  · rfl

theorem testConflictLamp_cu (s : State) : (testConflictLamp s).cu = s.cu := by
  unfold testConflictLamp
  split <;> rfl

theorem maintReported_cu (v : Bool) (s : State) : (maintReported v s).cu = s.cu := by
  unfold maintReported
  split
  · rfl
  · rfl
  · rfl
  · split <;> rfl
  · split <;> rfl
  all_goals rfl

theorem inputActs_cu (n : Input) (s : State) : (inputActs n s).cu = s.cu := by
  unfold inputActs
  split
  · exact alarmEvent_cu s
  · exact commandEdge_cu (directionCommand_cu _ _) s
  · exact commandEdge_cu (directionCommand_cu _ _) s
  · exact commandEdge_cu standDown_cu s
  · exact maintReported_cu _ s
  · exact testConflictLamp_cu s
  · exact testConflictLamp_cu s
  · rfl
  · rfl

theorem lampExpired_cu (l : Lamp) (s : State) : (lampExpired l s).cu = s.cu := by
  cases l with
  | accept => rfl
  | refused => rfl
  | conflict => exact testConflictLamp_cu _

theorem paceUpdate_cu (s : State) : (paceUpdate s).cu = s.cu := by
  unfold paceUpdate
  split <;> rfl

theorem considerDemand_cu (p : Nat) (st : StatusPart) (s : State) : (considerDemand p st s).cu = s.cu := by
  obtain ⟨_, _, e, -⟩ := considerDemand_rest p st s
  rw [e]

theorem endDefer_cu (id : Id) (s : State) : (endDefer id s).cu = s.cu := by
  unfold endDefer
  split
  · rfl
  · split
    · unfold waitRate
      split <;> rfl
    · exact (iuRest_placeIncident _ _).cu

theorem endSpacing_cu (s : State) : (endSpacing s).cu = s.cu := by
  unfold endSpacing
  dsimp only
  split
  · exact placeStatus_own _
  · rfl

theorem startSend_cu (s : State) : (startSend s).cu = s.cu := by
  unfold startSend
  split
  · rfl
  · dsimp only
    split <;> rfl

theorem takeCharacter_cu (o : Octet) (b : Bool) (s : State) : (takeCharacter o b s).cu = s.cu := by
  unfold takeCharacter
  dsimp only
  split
  · rfl
  · rfl
  · unfold arriveFrame
    dsimp only
    split <;> rfl
  · rfl

theorem leaveJoining_cu (s : State) : (leaveJoining s).cu = s.cu := (leaveJoining_fans s).2.2.1

theorem placeEarly_cu (s : State) : (placeEarly s).cu = s.cu := by
  unfold placeEarly
  dsimp only
  split <;> exact placeStatus_own s

/-! ## Frames taken from other stations -/

theorem noNewClaim_setView (v : List ClaimEntry) (s : State) : NoNewClaim s (setView v s) := .of_own (.inl rfl) rfl

theorem noNewClaim_receiveIncident (b : Octets) (s : State) : NoNewClaim s (receiveIncident b s) := by
  unfold receiveIncident
  split
  · exact .of_cu rfl
  · exact ((iuRest_catchUp _ s).trans (iuRest_receiveActive _ _ _)).noNewClaim
  · exact ((iuRest_catchUp _ s).trans ((iuRest_catchUp _ _).trans (iuRest_receiveAbsorbed _ _ _ _))).noNewClaim
  · exact ((iuRest_catchUp _ s).trans (iuRest_receiveEnd _ _)).noNewClaim

theorem noNewClaim_receiveEnding (b : Octets) (s : State) : NoNewClaim s (receiveEnding b s) := by
  unfold receiveEnding
  split
  · exact .of_cu rfl
  · exact ((iuRest_catchUp _ s).trans (iuRest_receiveEnd _ _)).noNewClaim

theorem noNewClaim_receiveClaim (p : Nat) (b : Octets) (s : State) : NoNewClaim s (receiveClaim p b s) := by
  unfold receiveClaim
  split
  · split
    · exact .of_cu rfl
    · rw [applyClaim_view]
      exact noNewClaim_setView _ s
  · exact .refl s

theorem noNewClaim_receiveClaimEnd (p : Nat) (b : Octets) (s : State) : NoNewClaim s (receiveClaimEnd p b s) := by
  unfold receiveClaimEnd
  split
  · split
    · exact .of_cu rfl
    · exact noNewClaim_setView _ s
  · exact .refl s

/-- Entry to CONFIG_FAULT drops a SETTLING claim (R104). -/
theorem noNewClaim_enterConfigFault (s : State) : NoNewClaim s (enterConfigFault s) := by
  refine ⟨fun c due ho => ?_, rfl⟩
  rw [enterConfigFault_own] at ho
  cases own : s.cu.own <;> rw [own] at ho <;> cases ho

theorem noNewClaim_receiveStatus (p : Nat) (b : Octets) (s : State) : NoNewClaim s (receiveStatus p b s) := by
  unfold receiveStatus duplicateTest
  split
  · split
    · split
      · exact .refl s
      · split
        · exact noNewClaim_enterConfigFault s
        · exact .of_cu rfl
    · exact .of_cu rfl
  · split
    · exact .of_cu rfl
    · exact .of_cu ((considerDemand_cu _ _ _).trans (iuRest_takeStatus _ _).cu)

theorem noNewClaim_handOff (f : Octets) (s : State) : NoNewClaim s (handOff f s) := by
  unfold handOff
  split
  · exact noNewClaim_receiveStatus _ _ _
  · exact noNewClaim_receiveIncident _ _
  · exact noNewClaim_receiveEnding _ _
  · exact noNewClaim_receiveClaim _ _ _
  · exact noNewClaim_receiveClaimEnd _ _ _
  · exact noNewClaim_receiveClaimEnd _ _ _
  · exact .refl _

theorem noNewClaim_dispatch (f : Octets) (s : State) : NoNewClaim s (dispatch f s) := by
  have heard : NoNewClaim s (if frameSource f = s.station then s else refreshPeer (frameSource f) s) := by
    split
    · exact .refl s
    · exact .of_cu rfl
  have handed (z : State) : NoNewClaim z (if fixedLengthOk f then handOff f z else raiseFlag .lineErrors z) := by
    split
    · exact noNewClaim_handOff f z
    · exact .of_cu rfl
  unfold dispatch
  split
  · exact .refl s
  · split
    · exact .of_cu rfl
    · split
      · exact .of_cu rfl
      · exact heard.trans (handed _)

/-! ## The own claim's events -/

theorem withdrawClaim_spacing (c : Claim) (s : State) : (withdrawClaim c s).cu.spacingDue = s.cu.spacingDue :=
  place_spacing _ _

theorem releaseClaim_spacing (c : Claim) (s : State) : (releaseClaim c s).cu.spacingDue = s.cu.spacingDue :=
  place_spacing _ _

theorem noNewClaim_settle (c : Claim) (s : State) : NoNewClaim s (settle c s) := by
  rcases settle_cases c s with ⟨d, -, -, e⟩ | ⟨-, e⟩
  · rw [e]
    exact ⟨fun c due ho => (by cases ho), rfl⟩
  · rw [e]
    exact .of_own (.inr (withdrawClaim_own c s)) (withdrawClaim_spacing c s)

theorem noNewClaim_renewClaim (c : Claim) (s : State) : NoNewClaim s (renewClaim c s) := by
  obtain ⟨-, spacing, own⟩ := place_cu (.claim s.sect c) (setOwn (.granted c none) s)
  refine ⟨fun c' due ho => ?_, spacing⟩
  rcases own with own | ⟨own, -⟩
  · rw [show (renewClaim c s).cu.own = .granted c none from own] at ho
    cases ho
  · rw [show (renewClaim c s).cu.own = .none from own] at ho
    cases ho

/-- A CLAIM sent starts the timer of the claim that settles (R99). -/
theorem noNewClaim_claimSent (b : Body) (s : State) : NoNewClaim s (claimSent b s) := by
  unfold claimSent
  split
  · split
    · rename_i own _
      refine ⟨fun c' due ho => ?_, rfl⟩
      cases ho
      exact ⟨none, own⟩
    · exact .refl s
  · exact .refl s

theorem noNewClaim_refuseFrame (b : Body) (s : State) : NoNewClaim s (refuseFrame b s) := by
  obtain ⟨-, spacing, own⟩ := refuseFrame_cu b s
  exact .of_own (own.imp_right And.left) spacing

theorem noNewClaim_collided (f : TxFrame) (s : State) : NoNewClaim s (collided f s) := by
  have returned : NoNewClaim s (returnFrame f s) := by
    unfold returnFrame
    split
    · exact noNewClaim_refuseFrame _ s
    · exact .of_cu rfl
  unfold collided
  split
  · exact .of_cu rfl
  · split
    · exact .refl s
    · split
      · exact .of_cu rfl
      · split
        · split
          · exact .of_cu rfl
          · exact returned
        · exact returned

/-! ## Every command -/

theorem noNewClaim_timed {due : Option Time} {body : State → State} {s x : State} (h : timed due body s = some x)
    (hb : ∀ s, NoNewClaim s (body s)) : NoNewClaim s x := by
  obtain ⟨t, -, rfl⟩ := Option.map_eq_some_iff.1 h
  exact (NoNewClaim.of_cu rfl : NoNewClaim s (reachTime t s)).trans (hb _)

theorem noNewClaim_taken {k : FrameKind} {s x : State} (h : taken k s = some x) : NoNewClaim s x := by
  unfold taken at h
  split at h
  · cases h
  · split at h
    · rename_i f fs _ _
      cases h
      exact (NoNewClaim.of_cu rfl : NoNewClaim s (setRx fs s)).trans (noNewClaim_dispatch f _)
    · cases h

theorem noNewClaim_characterEffect {ready : Bool} {o : Octet} {stop : Bool} {s x : State}
    (h : characterEffect ready o stop s = some x) : NoNewClaim s x := by
  unfold characterEffect at h
  split at h
  · exact noNewClaim_timed h fun s => .of_cu (startSend_cu s)
  · unfold whenReady at h
    split at h
    · cases h
      exact .of_cu (takeCharacter_cu _ _ _)
    · cases h

/-- While the spacing timer runs no own effect but that timer's expiry lets a new claim settle. -/
theorem noNewClaim_effect {i : Instr} {s x : State} (h : effect i s = some x) (spaced : s.cu.spacingDue ≠ none)
    (hi : i ≠ .claimSpacingExpiry) : NoNewClaim s x := by
  have stands {due : Option Time} {body : State → State} (h : timed due body s = some x)
      (hb : ∀ s, (body s).cu = s.cu) : NoNewClaim s x := noNewClaim_timed h fun s => .of_cu (hb s)
  cases i <;> simp only [effect] at h
  case claimSpacingExpiry => exact absurd rfl hi
  case sensorRound => exact stands h fun _ => rfl
  case sensorSample a b c =>
    unfold sampleEffect at h
    split at h
    · cases h
    · exact stands h fun _ => takeSample_cu _ _ _
  case debounceExpiry n => exact stands h fun _ => inputActs_cu n _
  case maintenanceEntry =>
    unfold whenReady at h
    split at h
    · cases h; exact .of_cu rfl
    · cases h
  case slotInputFilterExpiry k n => exact stands h fun _ => rfl
  case slotInputInitialLevels => exact stands h fun _ => rfl
  case startTimerExpiry k => exact stands h fun _ => rfl
  case coastTimerExpiry k => exact stands h fun _ => rfl
  case tripHoldExpiry k => exact stands h fun _ => rfl
  case paceUpdate => exact stands h paceUpdate_cu
  case changeTimerExpiry => exact stands h fun _ => rfl
  case yieldHoldExpiry id => exact stands h fun _ => rfl
  case incidentReceived => exact noNewClaim_taken h
  case endReceived => exact noNewClaim_taken h
  case statusReceived => exact noNewClaim_taken h
  case claimReceived => exact noNewClaim_taken h
  case withdrawReceived => exact noNewClaim_taken h
  case releaseReceived => exact noNewClaim_taken h
  case invalidFrameTaken => exact noNewClaim_taken h
  case reannounce id => exact stands h (endDefer_cu id)
  case endRepeat id => exact stands h fun _ => (iuRest_placeEnd _ _).cu
  case endingTimerExpiry id => exact stands h fun _ => rfl
  case peerSilent p => exact stands h fun _ => (iuRest_grown _).cu
  case claimPlacement =>
    rw [claimTest_of_spacing spaced] at h
    cases h
  case settleExpiry =>
    unfold settleEffect at h
    split at h
    · exact noNewClaim_timed h (noNewClaim_settle _)
    · cases h
    · cases h
  case claimRenewal =>
    unfold renewEffect at h
    split at h
    · exact noNewClaim_timed h (noNewClaim_renewClaim _)
    · cases h
    · cases h
  case claimEntryExpiry p => exact noNewClaim_timed h fun s => noNewClaim_setView _ s
  case presenceTimerExpiry => exact stands h placeStatus_own
  case statusSpacingExpiry => exact stands h endSpacing_cu
  case healthFlagExpiry f => exact stands h fun _ => rfl
  case sendStart => exact stands h startSend_cu
  case sendSuccess =>
    unfold successEffect at h
    split at h
    · cases h
    · exact noNewClaim_timed h fun s =>
        (NoNewClaim.of_cu rfl : NoNewClaim s (endAttempt s)).trans (noNewClaim_claimSent _ _)
  case collision k b =>
    unfold collisionEffect at h
    split at h
    · cases h
    · split at h
      · cases h
      · split at h
        · cases h
        · exact noNewClaim_timed h fun s =>
            (NoNewClaim.of_cu rfl : NoNewClaim s (endAttempt s)).trans (noNewClaim_collided _ _)
  case receiverSync => exact stands h fun _ => rfl
  case frameArrival o => exact noNewClaim_characterEffect h
  case rxFrameDiscard o b => exact noNewClaim_characterEffect h
  case rxTruncation => exact stands h fun _ => rfl
  case cmdLampExpiry l => exact stands h (lampExpired_cu l)
  case slotFltPhase k => exact stands h fun _ => rfl
  case characterReceived o b => exact noNewClaim_characterEffect h
  all_goals cases h

/-! ## What follows an event -/

theorem noNewClaim_followSlot (s : State) : NoNewClaim s (followSlot s) := by
  refine .of_own (followSlot_own s) ?_
  unfold followSlot
  split
  · split
    · rfl
    · exact withdrawClaim_spacing _ s
  · split
    · rfl
    · exact releaseClaim_spacing _ s
  · rfl

theorem noNewClaim_planned (b s : State) : NoNewClaim s (planned b s) :=
  (NoNewClaim.of_cu (recomputeIfDue_cu b s)).trans (noNewClaim_followSlot _)

/-- While the spacing timer runs the claim test that follows an event is not met (R98). -/
theorem noNewClaim_follow (b : State) {x : State} (spaced : x.cu.spacingDue ≠ none) : NoNewClaim x (follow b x) := by
  have plan : NoNewClaim x (beforePlan b x) := .of_cu ((governingChanged_cu _ _).trans (followList_cu x))
  have entry (z : State) : NoNewClaim z (enterIfReady z) := by
    unfold enterIfReady
    split
    · exact (NoNewClaim.of_cu rfl : NoNewClaim z (enterMaintenance z)).trans (noNewClaim_planned _ _)
    · exact .refl z
  have claim : NoNewClaim x (beforeClaim b x) := plan.trans ((noNewClaim_planned b _).trans (entry _))
  have test : testClaim (beforeClaim b x) = beforeClaim b x := by
    unfold testClaim
    rw [claimTest_of_spacing (by rw [claim.spacing]; exact spaced)]
  refine claim.trans (.of_cu ?_)
  change (testClaim (beforeClaim b x)).cu = _
  rw [test]

theorem noNewClaim_closeEvent (b : State) {x : State} (spaced : x.cu.spacingDue ≠ none) :
    NoNewClaim x (closeEvent b x) :=
  (noNewClaim_follow b spaced).trans (.of_cu (requestEarly_rest b _).2)

theorem noNewClaim_joined (t : Time) {s : State} (spaced : s.cu.spacingDue ≠ none) : NoNewClaim s (joined t s) := by
  have left : NoNewClaim s (leaveJoining (reachTime t s)) := .of_cu (leaveJoining_cu _)
  exact left.trans ((noNewClaim_follow s (by rw [left.spacing]; exact spaced)).trans (.of_cu (placeEarly_cu _)))

/-- No command but the spacing timer's expiry leaves a new claim SETTLING while that timer runs. -/
theorem answers_settling {i : Instr} {s u : State} (a : Answers i s u) (spaced : s.cu.spacingDue ≠ none)
    (hi : i ≠ .claimSpacingExpiry) {c : Claim} {due : Option Time} (settles : u.cu.own = .settling c due) :
    ∃ due', s.cu.own = .settling c due' := by
  cases a with
  | powerOn => cases settles
  | external => cases settles
  | release w held => exact ⟨due, settles⟩
  | level n v => exact ⟨due, settles⟩
  | pin k n v p inReset => exact ⟨due, settles⟩
  | idle => exact ⟨due, settles⟩
  | join t timer =>
    have joined := noNewClaim_joined t spaced
    have maint : NoNewClaim (Machine.joined t s) (maintAtJoin (Machine.joined t s)) := by
      unfold maintAtJoin
      split
      · exact .of_cu rfl
      · exact .refl _
    have before := joined.trans maint
    exact (before.trans (noNewClaim_closeEvent _ (by rw [before.spacing]; exact spaced))).settling c due settles
  | event _ _ x plain join own =>
    have before := noNewClaim_effect own spaced hi
    exact (before.trans (noNewClaim_closeEvent s (by rw [before.spacing]; exact spaced))).settling c due settles

/-- Settles O40: the placement and the two outcomes of the spacing timer's expiry, and what that timer forbids. -/
theorem claimPlacementAndSpacing : Obligations.ClaimPlacementAndSpacing := by
  refine ⟨fun s k cls rank own free few mode governed entry plan waits low room => ?_, fun s t hs due => ⟨fun idle => ?_,
      fun k cls rank own waits plan mode governed entry few room => ?_⟩, fun s => claimTest_of_spacing,
    fun i s u c due h spaced hi settles => answers_settling (exec_answers h) spaced hi settles⟩
  · exact claimPlacement_next (claimTest_met own (waitingSlot_lowest waits low) plan mode governed entry few free) room
  · exact spacingExpiry_idle hs due idle
  · have test : claimTest (unspaced (reachTime t s)) = some (k, cls, rank) :=
      claimTest_met (s := unspaced (reachTime t s)) own waits plan mode governed entry few rfl
    have cu := spacingExpiry_claims hs test room
    exact ⟨_, spacingExpiry_next due, by rw [cu]; rfl, by rw [cu]; rfl, by rw [cu]; rfl⟩

end Sys2Proof.Machine
end

section
/-! PROOFS. The Peer Table's liveness and the frames that change no peer's status part: a peer that turns SILENT (O35), an
invalid frame (O39), and a STATUS of the own index, which the two serials decide (O34). -/

namespace Sys2Proof.Machine

/-! ## A peer turns SILENT (R112, R113) -/

theorem peerPeriod_eq (x : Peer) : peerPeriod x =
    if (x.status.map fun st => st.view.mode) = some .incident then 1000000 else 2000000 := by
  have period (m : Mode) : presencePeriod m = if m = .incident then 1000000 else 2000000 := by cases m <;> rfl
  unfold peerPeriod
  cases x.status with
  | none => rfl
  | some st => simp only [period, Option.map_some, Option.some.injEq]

/-- The burnt presumption and the closing leave the Peer Table as the silence made it, and the clock at its moment. -/
theorem peerSilent_closes {s : State} {p : Nat} {h : Time} (live : (peerOf s.pt p).liveness = .live h) :
    ∃ u, exec (.peerSilent p) s = .next u ∧ u.now = max s.now (h + 4 * peerPeriod (peerOf s.pt p)) ∧
      u.pt = (silencePeer p s).pt ∧ u.su = s.su ∧ u.li.rx = s.li.rx := by
  have due : silentDue (peerOf s.pt p) = some (h + 4 * peerPeriod (peerOf s.pt p)) := by
    unfold silentDue
    rw [live]
  obtain ⟨u, next, -, closes, -⟩ := onTimer_closes (fun s => grown (silencePeer p s)) s due
  have rest := iuRest_grown (silencePeer p (reachTime (h + 4 * peerPeriod (peerOf s.pt p)) s))
  exact ⟨u, next, closes.now.trans rest.now, closes.pt.trans rest.pt, closes.su.trans rest.su,
    closes.rx.trans rest.rx⟩

/-- Settles O35: the table is the one `silencePeer` leaves. -/
theorem peerTurnsSilent : Obligations.PeerTurnsSilent := by
  intro s p h live
  obtain ⟨u, next, now, pt, su, rx⟩ := peerSilent_closes live
  rw [peerPeriod_eq] at now
  refine ⟨u, next, now, ?_, fun q other => ?_, su, rx⟩
  · rw [pt]
    exact peerOf_silencePeer_self p s
  · rw [pt]
    exact peerOf_silencePeer_ne other s

/-! ## An invalid frame (R110, R147) -/

/-- The station does not hear itself (R109). -/
theorem takenFrom_own {f : Octets} {s : State} (self : frameSource f = s.station) (fs : List Octets) :
    takenFrom f fs s = setRx fs s := if_pos self

/-- A frame of a good kind and source taken for none of the six has a wrong length. -/
theorem fixedLength_of_invalid {n : Nat} {f : Octets} (h : classify n f = .invalid) (kind : kindOf f ≠ .invalid)
    (source : sourceOk n f = true) : fixedLengthOk f = false := by
  by_contra good
  have good : fixedLengthOk f = true := by simpa using good
  unfold classify at h
  rw [source, good] at h
  exact kind h

/-- An invalid frame raises LINE_ERRORS, and refreshes its sender only where the length alone is wrong. -/
theorem dispatch_invalid {f : Octets} {s : State} (invalid : classify s.count f = .invalid)
    (mode : s.sj.mode ≠ .configFault) : dispatch f s = raiseFlag .lineErrors
      (if kindOf f ≠ .invalid ∧ sourceOk s.count f = true then heardFrom f s else s) := by
  unfold dispatch
  rw [if_neg mode]
  by_cases kind : kindOf f = .invalid
  · rw [if_pos kind, if_neg fun good => good.1 kind]
  · rw [if_neg kind]
    by_cases source : sourceOk s.count f = true
    · rw [if_neg (by simp [source]), fixedLength_of_invalid invalid kind source,
        if_pos (And.intro kind source)]
      rfl
    · rw [if_pos (by simpa using source), if_neg fun good => source good.2]

/-- Settles O39, by whether the sender is another station that is heard. -/
theorem invalidFrameRaisesLineErrors : Obligations.InvalidFrameRaisesLineErrors := by
  intro s f fs rx invalid mode
  have next : exec .invalidFrameTaken s = .next (closeEvent s (dispatch f (setRx fs s))) := by
    change takeFrame .invalid s = _
    unfold takeFrame
    rw [rx]
    exact if_pos invalid
  refine ⟨_, next, ?_⟩
  have closes := closes_closeEvent s (dispatch f (setRx fs s))
  have own : dispatch f (setRx fs s) = raiseFlag .lineErrors
      (if kindOf f ≠ .invalid ∧ sourceOk s.count f = true then takenFrom f fs s else setRx fs s) :=
    dispatch_invalid (s := setRx fs s) invalid mode
  convert closes using 1
  rw [own]
  by_cases good : kindOf f ≠ .invalid ∧ sourceOk s.count f = true
  · rw [if_pos good]
    by_cases self : frameSource f = s.station
    · rw [takenFrom_own self, if_neg fun h => h.2.2 self]
      rfl
    · rw [if_pos ⟨good.1, good.2, self⟩]
      exact (badStatus_eq fs self).symm
  · rw [if_neg good, if_neg fun h => good ⟨h.1, h.2.1⟩]
    rfl

/-! ## A STATUS of the own index (R118 to R120) -/

theorem duplicateTest_same (s : State) : duplicateTest s.sj.serial s = s := if_pos rfl

theorem duplicateTest_lower {x : BitVec 32} {s : State} (h : s.sj.serial.toNat < x.toNat) :
    duplicateTest x s = enterConfigFault s := by
  unfold duplicateTest
  rw [if_neg (by rintro rfl; omega), if_pos h]

theorem duplicateTest_higher {x : BitVec 32} {s : State} (h : x.toNat < s.sj.serial.toNat) :
    duplicateTest x s = raiseFlag .duplicateIndex s := by
  unfold duplicateTest
  rw [if_neg (by rintro rfl; omega), if_neg (by omega)]

/-- Whatever the serials decide, the clock, the Sensing Unit and the receive queue stand. -/
theorem duplicateTest_rest (x : BitVec 32) (s : State) : (duplicateTest x s).now = s.now ∧
    (duplicateTest x s).su = s.su ∧ (duplicateTest x s).li.rx = s.li.rx := by
  unfold duplicateTest
  split
  · exact ⟨rfl, rfl, rfl⟩
  · split
    · exact ⟨rfl, rfl, rfl⟩
    · exact ⟨rfl, rfl, rfl⟩

theorem duplicateReceived_next {s : State} {f : Octets} {fs : List Octets} (rx : s.li.rx = f :: fs)
    (kind : classify s.count f = .status) (mode : s.sj.mode ≠ .configFault) (self : frameSource f = s.station)
    (length : statusLengthOk (frameBody f) = true) : exec .statusReceived s =
      .next (closeEvent s (duplicateTest (statusSerial (frameBody f)) (setRx fs s))) := by
  have own : frameSource f = (setRx fs s).station := self
  rw [statusReceived_next rx kind mode, takenFrom_own self]
  unfold receiveStatus
  rw [if_pos own, if_pos length]

/-- Nothing that follows an event looks at the receive queue. -/
theorem inert_setRx (q : List Octets) (s : State) : Inert s (setRx q s) :=
  ⟨rfl, rfl, rfl, rfl, rfl, rfl, rfl, id, id, rfl, healthOctet_congr rfl rfl, rfl⟩

/-- An event that only raises a flag leaves the blocks a settled state holds, but for Bulletin Assembly and the line. -/
theorem closeEvent_raised_rest {s y : State} (f : TimedFlag) (hs : Settled s) (inert : Inert s y)
    (health : y.health = s.health) : PlanRest y (closeEvent s (raiseFlag f y)) ∧
      (closeEvent s (raiseFlag f y)).cu = y.cu := by
  have follows := follow_raised (f := f) hs inert health
  have raised : PlanRest y (raiseFlag f y) := ⟨rfl, rfl, rfl, rfl, rfl, rfl, rfl⟩
  unfold closeEvent
  rw [follows]
  exact ⟨raised.trans (planRest_requestEarly s _), (requestEarly_rest s _).2⟩

/-- The station of the lower serial is in CONFIG_FAULT when the event ends (R119, R171). -/
theorem closeEvent_enterConfigFault (b s : State) :
    (closeEvent b (enterConfigFault s)).sj = { s.sj with mode := .configFault, joinDue := none } ∧
      FaultHolds (closeEvent b (enterConfigFault s)) := by
  have closes := closes_closeEvent b (enterConfigFault s)
  refine ⟨?_, faultHolds_closeEvent b (faultHolds_enterConfigFault s) rfl⟩
  rw [closes.sj, closes.modeStays (.inr (.inr rfl))]
  rfl

/-- Settles O34, by the three ways the serials compare (`duplicateTest_lower`, `duplicateTest_higher`,
`duplicateTest_same`). -/
theorem duplicateIndexIsDecidedBySerial : Obligations.DuplicateIndexIsDecidedBySerial := by
  intro s f fs rx kind mode self length
  have next := duplicateReceived_next rx kind mode self length
  have closes := closes_closeEvent s (duplicateTest (statusSerial (frameBody f)) (setRx fs s))
  obtain ⟨now, su, queue⟩ := duplicateTest_rest (statusSerial (frameBody f)) (setRx fs s)
  refine ⟨_, next, closes.rx.trans queue, closes.now.trans now, closes.su.trans su, fun lower => ?_, fun higher => ?_,
    fun same => ?_⟩
  · rw [duplicateTest_lower (s := setRx fs s) lower]
    exact closeEvent_enterConfigFault s (setRx fs s)
  · rw [duplicateTest_higher (s := setRx fs s) higher] at closes ⊢
    have stays := mt (closeEvent_fault (b := s) (x := raiseFlag .duplicateIndex (setRx fs s))) mode
    refine ⟨closes.health _ (by simp), by rw [closes.sj]; rfl, stays, closes.pt, fun hs => ?_⟩
    obtain ⟨rest, cu⟩ := closeEvent_raised_rest .duplicateIndex hs (inert_setRx fs s) rfl
    exact ⟨rest.sj, rest.iu, rest.tp, rest.fs, cu⟩
  · rw [same, show duplicateTest s.sj.serial (setRx fs s) = setRx fs s from duplicateTest_same (setRx fs s)] at closes ⊢
    exact ⟨closes.health, closes.pt, fun hs => closeEvent_inert hs (inert_setRx fs s)⟩

end Sys2Proof.Machine
end

section
/-! PROOFS. The Sensing Unit: a polling round (O6), a sensor's sample with its held reading and the heat alarm (O7), and
the end of an input's debounce (O10). -/

namespace Sys2Proof.Machine

/-! ## A polling round (R123) -/

/-- Settles O6: the round is `nextRound`, which nothing that follows an event looks at. -/
theorem sensorRoundStartsATransaction : Obligations.SensorRoundStartsATransaction := by
  intro s t settled due
  have inert : Inert s (nextRound (reachTime t s)) :=
    ⟨rfl, rfl, rfl, rfl, rfl, rfl, rfl, id, id, rfl, rfl, rfl⟩
  have next : exec .sensorRound s = .next (nextRound (reachTime t s)) := onTimer_inert due settled inert
  rw [next, nextRound_eq, reachTime_su, due]
  rfl

/-! ## The sample of a transaction (R124, R125) -/

/-- Two octets as one number, high octet first. -/
theorem toNat_twoOctets (h l : Octet) : (h ++ l : BitVec 16).toNat = 256 * h.toNat + l.toNat := by
  rw [BitVec.toNat_append, ← Nat.shiftLeft_add_eq_or_of_lt l.isLt, Nat.shiftLeft_eq]
  omega

theorem signed16_eq (h l : Octet) : signed16 h l =
    if h.toNat < 128 then 256 * (h.toNat : Int) + l.toNat else 256 * (h.toNat : Int) + l.toNat - 65536 := by
  unfold signed16
  rw [BitVec.toInt_eq_toNat_cond, toNat_twoOctets]
  have low := l.isLt
  split
  · rw [if_pos (by omega)]
    omega
  · rw [if_neg (by omega)]
    omega

theorem twoOctets_eq_8000 (h l : Octet) : (h ++ l : BitVec 16) = 0x8000#16 ↔ h = 0x80#8 ∧ l = 0x00#8 := by
  have low := l.isLt
  rw [← BitVec.toNat_inj, ← BitVec.toNat_inj, ← BitVec.toNat_inj, toNat_twoOctets]
  change 256 * h.toNat + l.toNat = 32768 ↔ h.toNat = 128 ∧ l.toNat = 0
  omega

/-- The third octet of a good transaction (R124). -/
theorem checkOctet_iff (h l c : Octet) :
    c = h + l + 0x5A#8 ↔ c.toNat = (h.toNat + l.toNat + 90) % 256 := by
  rw [← BitVec.toNat_inj, BitVec.toNat_add, BitVec.toNat_add]
  change c.toNat = ((h.toNat + l.toNat) % 256 + 90) % 256 ↔ _
  omega

theorem sampleValue_bad {x : Sensor} {h l c : Octet}
    (bad : c.toNat ≠ (h.toNat + l.toNat + 90) % 256 ∨ (h = 0x80#8 ∧ l = 0x00#8)) :
    sampleValue x h l c = none := by
  refine if_neg fun ⟨check, value⟩ => ?_
  rcases bad with bad | bad
  · exact bad ((checkOctet_iff h l c).1 check)
  · exact value ((twoOctets_eq_8000 h l).2 bad)

theorem sampleValue_good {h l c : Octet} (x : Sensor) (check : c.toNat = (h.toNat + l.toNat + 90) % 256)
    (value : ¬ (h = 0x80#8 ∧ l = 0x00#8)) : sampleValue x h l c = rangeRule x (signed16 h l) :=
  if_pos ⟨(checkOctet_iff h l c).2 check, mt (twoOctets_eq_8000 h l).1 value⟩

/-! ## What taking a sample leaves -/

/-- An alarm event is the Incident Unit's, which may hold it (R10, R132). -/
theorem iuRest_alarmEvent (s : State) :
    ∃ b, IuRest { s with iu := { s.iu with heldAlarm := b } } (alarmEvent s) := by
  unfold alarmEvent
  split
  · exact ⟨true, .refl _⟩
  · exact ⟨s.iu.heldAlarm, iuRest_actOnAlarm s⟩
  · exact ⟨s.iu.heldAlarm, iuRest_actOnAlarm s⟩
  · exact ⟨s.iu.heldAlarm, iuRest_actOnAlarm s⟩
  · exact ⟨s.iu.heldAlarm, .refl s⟩

/-- The heat alarm after a sample that has joined the history (R130, R131). -/
def alarmAfter (sample : Option Int) (history : List (Option Int)) (opacity : Option Int) : HeatAlarm → HeatAlarm
  | .armed => if heatTests history opacity then .alarmed 0 else .armed
  | .alarmed cool => rearm cool sample

/-- The Sensing Unit with a sample of one sensor taken (R124 to R131). -/
def Su.sampled (u : Su) (sample : Option Int) : Sensor → Su
  | .heat => { u with
      heat := u.heat.take sample
      history := historyTake sample u.history
      alarm := alarmAfter sample (historyTake sample u.history) u.opacity.value u.alarm }
  | .opacity => { u with opacity := u.opacity.take sample }
  | .velocity => { u with velocity := u.velocity.take sample }

/-- The held reading of one sensor (R126). -/
def Su.reading (u : Su) : Sensor → Reading
  | .heat => u.heat
  | .opacity => u.opacity
  | .velocity => u.velocity

/-- What a sample taken at `b` leaves in `s`: the Sensing Unit is `su` and SENSOR_INVALID's hold timer `invalid`; the
clock, the mode and the peers stand. -/
structure Sensed (b : State) (su : Su) (invalid : Option Time) (s : State) : Prop where
  now : s.now = b.now
  sj : s.sj = b.sj
  pt : s.pt = b.pt
  su : s.su = su
  invalid : s.health.get .sensorInvalid = invalid

/-- SENSOR_INVALID after a sample that leaves its reading as `r` (R127). -/
def invalidAfter (v : Option Int) (r : Reading) (s : State) : Option Time :=
  if v = none ∧ r.value = none then some (s.now + healthTime) else s.health.get .sensorInvalid

theorem sensed_noteInvalid (v : Option Int) (r : Reading) (s : State) :
    Sensed s s.su (invalidAfter v r s) (noteInvalid v r s) := by
  unfold noteInvalid invalidAfter
  split <;> exact ⟨rfl, rfl, rfl, rfl, rfl⟩

theorem sensed_heatAlarmStep (v : Option Int) (s : State) :
    Sensed s { s.su with alarm := alarmAfter v s.su.history s.su.opacity.value s.su.alarm }
      (s.health.get .sensorInvalid) (heatAlarmStep v s) := by
  unfold heatAlarmStep alarmAfter
  cases armed : s.su.alarm with
  | armed =>
    dsimp only
    split
    · obtain ⟨b, rest⟩ := iuRest_alarmEvent (setSu { s.su with alarm := .alarmed 0 } s)
      exact ⟨rest.now, rest.sj, rest.pt, rest.su, rest.health _ (by decide) (by decide) (by decide)⟩
    · rw [← armed]
      exact ⟨rfl, rfl, rfl, rfl, rfl⟩
  | alarmed cool => exact ⟨rfl, rfl, rfl, rfl, rfl⟩

/-- A sample updates its own sensor's part of the Sensing Unit, and raises SENSOR_INVALID where it is missing and
its reading INVALID (R124 to R131). -/
theorem sensed_takeSample (x : Sensor) (v : Option Int) (s : State) :
    Sensed s (s.su.sampled v x) (invalidAfter v ((s.su.reading x).take v) s) (takeSample x v s) := by
  cases x with
  | heat =>
    have noted := sensed_noteInvalid v (s.su.heat.take v)
      (setSu { s.su with heat := s.su.heat.take v, history := historyTake v s.su.history } s)
    have stepped := sensed_heatAlarmStep v (noteInvalid v (s.su.heat.take v)
      (setSu { s.su with heat := s.su.heat.take v, history := historyTake v s.su.history } s))
    rw [noted.su] at stepped
    exact ⟨stepped.now.trans noted.now, stepped.sj.trans noted.sj, stepped.pt.trans noted.pt, stepped.su,
      stepped.invalid.trans noted.invalid⟩
  | opacity =>
    obtain ⟨now, sj, pt, su, invalid⟩ := sensed_noteInvalid v (s.su.opacity.take v)
      (setSu { s.su with opacity := s.su.opacity.take v } s)
    exact ⟨now, sj, pt, su, invalid⟩
  | velocity =>
    obtain ⟨now, sj, pt, su, invalid⟩ := sensed_noteInvalid v (s.su.velocity.take v)
      (setSu { s.su with velocity := s.su.velocity.take v } s)
    exact ⟨now, sj, pt, su, invalid⟩

/-- The state at a transaction's end, in which the next sensor's transaction has begun (R123). -/
def transactionEnded (x : Transaction) (s : State) : State :=
  beginTransaction (nextSensor x.sensor) (reachTime x.ends s)

/-- A transaction ends with its sample, and what follows it closes the event (R123, R124). -/
theorem sensorSample_next {s : State} {x : Transaction} (h l c : Octet) (running : s.su.transaction = some x) :
    exec (.sensorSample h l c) s =
      .next (closeEvent s (takeSample x.sensor (sampleValue x.sensor h l c) (transactionEnded x s))) := by
  change execSensorSample h l c s = _
  unfold execSensorSample
  rw [running]
  rfl

/-! ## The Sensing Unit with a sample taken, part by part -/

theorem transactionEnded_reading (x : Transaction) (s : State) (y : Sensor) :
    (transactionEnded x s).su.reading y = s.su.reading y := by
  cases y <;> rfl

theorem sampled_heat (u : Su) (v : Option Int) (x : Sensor) :
    (u.sampled v x).heat = if x = .heat then (u.reading x).take v else u.heat := by
  cases x <;> rfl

theorem sampled_opacity (u : Su) (v : Option Int) (x : Sensor) :
    (u.sampled v x).opacity = if x = .opacity then (u.reading x).take v else u.opacity := by
  cases x <;> rfl

theorem sampled_velocity (u : Su) (v : Option Int) (x : Sensor) :
    (u.sampled v x).velocity = if x = .velocity then (u.reading x).take v else u.velocity := by
  cases x <;> rfl

theorem sampled_history (u : Su) (v : Option Int) (x : Sensor) :
    (u.sampled v x).history = if x = .heat then historyTake v u.history else u.history := by
  cases x <;> rfl

theorem sampled_alarm (u : Su) (v : Option Int) {x : Sensor} (other : x ≠ .heat) :
    (u.sampled v x).alarm = u.alarm := by
  cases x with
  | heat => exact absurd rfl other
  | opacity => rfl
  | velocity => rfl

/-- A sample leaves the transaction, the next round and the inputs. -/
theorem sampled_rest (u : Su) (v : Option Int) (x : Sensor) : (u.sampled v x).transaction = u.transaction ∧
    (u.sampled v x).roundDue = u.roundDue ∧ ∀ i, (u.sampled v x).input i = u.input i := by
  cases x <;> exact ⟨rfl, rfl, fun i => by cases i <;> rfl⟩

theorem reading_take_eq (r : Reading) (sample : Option Int) : r.take sample =
    match sample, r.value with
    | some v, _ => ⟨some v, 0⟩
    | none, none => ⟨none, 10⟩
    | none, some v => if r.missing + 1 < 10 then ⟨some v, r.missing + 1⟩ else ⟨none, 10⟩ := by
  unfold Reading.take
  rcases sample with _ | v
  · cases r.value with
    | none => rfl
    | some v =>
      exact if_congr Nat.succ_lt_succ_iff.symm rfl rfl
  · rfl

/-! ## The heat alarm's tests (R130) -/

/-- A sample that joins the history pushes each of the ten before it one place back (R129). -/
theorem historyTake_older {n : Nat} (hn : n < 10) (v : Option Int) (hist : List (Option Int)) :
    (historyTake v hist)[n + 1]? = hist[n]? := by
  rw [historyTake, List.getElem?_cons_succ, List.getElem?_take_of_lt hn]

theorem historyTake_youngest (v : Option Int) (hist : List (Option Int)) : (historyTake v hist)[0]? = some v := rfl

theorem sustainedHeat_taken (v : Int) (hist : List (Option Int)) :
    sustainedHeat (historyTake (some v) hist) = true ↔ 70 ≤ v ∧ ∃ w, hist[0]? = some (some w) ∧ 70 ≤ w := by
  unfold sustainedHeat
  rw [historyTake_youngest, historyTake_older (by omega)]
  rcases hist[0]? with _ | _ | w <;> simp

theorem rapidRise_taken (v : Int) (hist : List (Option Int)) :
    rapidRise (historyTake (some v) hist) = true ↔ 45 ≤ v ∧ ∃ w, hist[9]? = some (some w) ∧ w + 15 ≤ v := by
  unfold rapidRise
  rw [historyTake_youngest, historyTake_older (by omega)]
  rcases hist[9]? with _ | _ | w <;> simp

theorem hotSmoke_taken (v : Int) (hist : List (Option Int)) (opacity : Option Int) :
    hotSmoke (historyTake (some v) hist) opacity = true ↔ 60 ≤ v ∧ ∃ o, opacity = some o ∧ 50 ≤ o := by
  unfold hotSmoke
  rw [historyTake_youngest]
  cases opacity <;> simp

theorem heatTests_taken (v : Int) (hist : List (Option Int)) (opacity : Option Int) :
    heatTests (historyTake (some v) hist) opacity = true ↔
      (70 ≤ v ∧ ∃ w, hist[0]? = some (some w) ∧ 70 ≤ w) ∨
        (45 ≤ v ∧ ∃ w, hist[9]? = some (some w) ∧ w + 15 ≤ v) ∨ (60 ≤ v ∧ ∃ o, opacity = some o ∧ 50 ≤ o) := by
  unfold heatTests
  rw [Bool.or_eq_true, Bool.or_eq_true, sustainedHeat_taken, rapidRise_taken, hotSmoke_taken, or_assoc]

/-- No test is met at a missing sample. -/
theorem armed_missing (hist : List (Option Int)) (opacity : Option Int) :
    alarmAfter none (historyTake none hist) opacity .armed = .armed := rfl

/-- The re-arm count at a good sample (R131). -/
theorem rearm_good (n : Nat) (v : Int) : rearm n (some v) =
    if 60 ≤ v then .alarmed 0 else if n + 1 < 30 then .alarmed (n + 1) else .armed := by
  unfold rearm
  by_cases hot : 60 ≤ v
  · rw [if_pos hot]
    exact if_neg (by omega)
  · rw [if_neg hot]
    refine (if_pos (by omega)).trans ?_
    by_cases more : n + 1 < 30
    · rw [if_pos more, if_neg (by omega)]
    · rw [if_neg more, if_pos (by omega)]

/-! ## The sample's three parts (O7) -/

/-- A good transaction's value, sensor by sensor (R125). -/
theorem rangeRule_clamps (v : Int) :
    rangeRule .heat v = (if -40 ≤ v ∧ v ≤ 1000 then some v else none) ∧
    rangeRule .opacity v = some (if v < 0 then 0 else if 254 < v then 254 else v) ∧
    rangeRule .velocity v = some (if v < -200 then -200 else if 200 < v then 200 else v) :=
  ⟨rfl, congrArg some (by omega), congrArg some (by omega)⟩

/-- Settles O7: the octets by `sampleValue_bad` and `sampleValue_good`, the update by `sensed_takeSample`, the alarm by
`heatTests_taken` and `rearm_good`. -/
theorem sensorSampleUpdatesReadingAndAlarm : Obligations.SensorSampleUpdatesReadingAndAlarm := by
  refine ⟨?octets, ?update, ?alarm⟩
  case octets =>
    intro x h l c n v
    refine ⟨fun bad => sampleValue_bad (.inl bad), fun high low => sampleValue_bad (.inr ⟨high, low⟩),
      fun check value => ?_⟩
    have octets : signed16 h l = v := signed16_eq h l
    obtain ⟨heat, opacity, velocity⟩ := rangeRule_clamps v
    rw [sampleValue_good x check value, octets]
    cases x with
    | heat => exact heat
    | opacity => exact opacity
    | velocity => exact velocity
  case update =>
    intro s x h l c running
    have sensed := sensed_takeSample x.sensor (sampleValue x.sensor h l c) (transactionEnded x s)
    have closes := closes_closeEvent s (takeSample x.sensor (sampleValue x.sensor h l c) (transactionEnded x s))
    have su := closes.su.trans sensed.su
    have invalid := (closes.health .sensorInvalid (by decide)).trans sensed.invalid
    obtain ⟨transaction, roundDue, input⟩ :=
      sampled_rest (transactionEnded x s).su (sampleValue x.sensor h l c) x.sensor
    rw [transactionEnded_reading] at invalid
    refine ⟨_, sensorSample_next h l c running, closes.now.trans sensed.now, ?_, ?_, ?_, fun other => ?_, ?_,
      fun i => ?_, closes.pt.trans sensed.pt, ?_⟩
    · intro old new
      have taken : (s.su.reading x.sensor).take (sampleValue x.sensor h l c) = new := reading_take_eq _ _
      rw [taken] at invalid
      rw [su, sampled_heat, sampled_opacity, sampled_velocity, transactionEnded_reading, taken]
      exact ⟨rfl, rfl, rfl, fun missing gone => invalid.trans (if_pos ⟨missing, gone⟩),
        fun good => invalid.trans (if_neg good)⟩
    · rw [su, sampled_history]
      cases x.sensor <;> rfl
    · rw [su, transaction]
      unfold transactionEnded
      cases x.sensor <;> rfl
    · rw [su, sampled_alarm _ _ other]
      rfl
    · rw [su, roundDue]
      rfl
    · rw [su, input]
      cases i <;> rfl
    · have sj := closes.sj
      rw [sensed.sj] at sj
      exact sj
  case alarm =>
    intro s t h l c running
    have sensed := sensed_takeSample .heat (sampleValue .heat h l c) (transactionEnded ⟨.heat, t⟩ s)
    have closes := closes_closeEvent s (takeSample .heat (sampleValue .heat h l c) (transactionEnded ⟨.heat, t⟩ s))
    have alarm := congrArg Su.alarm (closes.su.trans sensed.su)
    refine ⟨_, sensorSample_next h l c running, ?_⟩
    dsimp only
    generalize sampleValue .heat h l c = sample at alarm ⊢
    change _ = alarmAfter sample (historyTake sample s.su.history) s.su.opacity.value s.su.alarm at alarm
    rw [alarm]
    cases s.su.alarm with
    | armed =>
      cases sample with
      | none => exact armed_missing s.su.history s.su.opacity.value
      | some v =>
        have tests := heatTests_taken v s.su.history s.su.opacity.value
        exact ⟨fun met => if_pos (tests.2 met), fun unmet => if_neg (mt tests.1 unmet)⟩
    | alarmed n =>
      cases sample with
      | none => rfl
      | some v => exact rearm_good n v

/-! ## The end of a debounce (R133, R134) -/

/-- What no debounced level hands on touches: the clock, the Sensing Unit, the peers, the frames received and the frame
being sent. -/
structure NicheRest (s t : State) : Prop where
  now : t.now = s.now
  su : t.su = s.su
  pt : t.pt = s.pt
  rx : t.li.rx = s.li.rx
  sending : t.li.sending = s.li.sending

theorem NicheRest.refl (s : State) : NicheRest s s := ⟨rfl, rfl, rfl, rfl, rfl⟩

theorem IuRest.niche {s t : State} (h : IuRest s t) : NicheRest s t := ⟨h.now, h.su, h.pt, h.rx, h.sending⟩

theorem NicheRest.lightAccept {s t : State} (h : NicheRest s t) : NicheRest s (lightAccept t) :=
  ⟨h.now, h.su, h.pt, h.rx, h.sending⟩

theorem nicheRest_alarmEvent (s : State) : NicheRest s (alarmEvent s) := by
  obtain ⟨b, rest⟩ := iuRest_alarmEvent s
  exact ⟨rest.now, rest.su, rest.pt, rest.rx, rest.sending⟩

theorem nicheRest_directionCommand (d : Direction) (other : Bool) (s : State) :
    NicheRest s (directionCommand d other s) := by
  unfold directionCommand
  split
  · exact ⟨rfl, rfl, rfl, rfl, rfl⟩
  · split
    · exact ((iuRest_setRecords _ s).trans (iuRest_triggerReannounce _ _)).niche.lightAccept
    · exact ⟨rfl, rfl, rfl, rfl, rfl⟩

theorem nicheRest_standDown (s : State) : NicheRest s (standDown s) := by
  unfold standDown
  split
  · exact ⟨rfl, rfl, rfl, rfl, rfl⟩
  · rename_i g _
    have ended : IuRest s (placeEnd g.id (endChain g.id s)) := (iuRest_endChain _ s).trans (iuRest_placeEnd _ _)
    exact ⟨ended.now, ended.su, ended.pt, ended.rx, ended.sending⟩

theorem nicheRest_commandEdge {act : State → State} (rest : ∀ s, NicheRest s (act s)) (s : State) :
    NicheRest s (commandEdge act s) := by
  have noted : NicheRest s (act (noteCommand s)) := by
    obtain ⟨now, su, pt, rx, sending⟩ := rest (noteCommand s)
    exact ⟨now, su, pt, rx, sending⟩
  unfold commandEdge
  split
  · exact noted
  · exact noted
  · exact noted
  · exact .refl s
  · exact .refl s

theorem nicheRest_maintReported (asserted : Bool) (s : State) : NicheRest s (maintReported asserted s) := by
  have dropped : NicheRest s (if s.fs.maintPending then dropMaintPending s else s) := by
    split
    · exact ⟨rfl, rfl, rfl, rfl, rfl⟩
    · exact .refl s
  unfold maintReported
  split
  · exact ⟨rfl, rfl, rfl, rfl, rfl⟩
  · exact ⟨rfl, rfl, rfl, rfl, rfl⟩
  · exact ⟨rfl, rfl, rfl, rfl, rfl⟩
  · exact dropped
  · exact dropped
  all_goals exact .refl s

theorem nicheRest_testConflictLamp (s : State) : NicheRest s (testConflictLamp s) := by
  unfold testConflictLamp
  split
  · exact ⟨rfl, rfl, rfl, rfl, rfl⟩
  · exact .refl s

theorem nicheRest_inputActs (i : Input) (s : State) : NicheRest s (inputActs i s) := by
  unfold inputActs
  split
  · exact nicheRest_alarmEvent s
  · exact nicheRest_commandEdge (nicheRest_directionCommand _ _) s
  · exact nicheRest_commandEdge (nicheRest_directionCommand _ _) s
  · exact nicheRest_commandEdge nicheRest_standDown s
  · exact nicheRest_maintReported _ s
  · exact nicheRest_testConflictLamp s
  · exact nicheRest_testConflictLamp s
  · exact .refl s
  · exact .refl s

/-- Settles O10: the level is taken before the input acts, and neither what it hands on (`nicheRest_inputActs`) nor
what follows the event touches the Sensing Unit. -/
theorem debounceExpiryTakesTheLevel : Obligations.DebounceExpiryTakesTheLevel := by
  intro s i t due
  have acted := nicheRest_inputActs i (setSu (s.su.setInput i (inputTaken (s.su.input i))) (reachTime t s))
  have closes := closes_closeEvent s
    (inputActs i (setSu (s.su.setInput i (inputTaken (s.su.input i))) (reachTime t s)))
  exact ⟨_, debounceExpiry_next due, closes.now.trans acted.now, closes.su.trans acted.su, closes.pt.trans acted.pt,
    closes.rx.trans acted.rx, closes.sending.trans acted.sending⟩

end Sys2Proof.Machine
end

section
/-! PROOFS. A frame whose last octet arrives joins the receive queue or is lost to an overrun, and one with an error is
discarded (O49). -/

namespace Sys2Proof.Machine

/-! ## What a character comes to (R150) -/

theorem receiving_of_idle {s : State} (held : s.sj.held = false) (idle : s.li.sending = none) :
    receiving s = true := by
  unfold receiving
  rw [held, idle]
  rfl

/-- The receiver's check of the CRC, as an equation (R139). -/
theorem frameCrcOk_iff (f : Octets) : frameCrcOk f = true ↔
    f.drop (3 + frameLength f) = octets16 (crc (f.take (3 + frameLength f))) := beq_iff_eq

theorem hear_arrived {l : Li} {o : Octet} (synced : l.synced = true) (fits : frameLength (l.assembly ++ [o]) ≤ 120)
    (whole : (l.assembly ++ [o]).length = 5 + frameLength (l.assembly ++ [o]))
    (good : frameCrcOk (l.assembly ++ [o]) = true) : hear l o true = .arrived := by
  unfold hear
  dsimp only
  rw [if_neg (by simp [synced]), if_neg (by decide), if_neg (by omega), if_neg (by omega), if_neg (by omega),
    if_pos good]

theorem hear_stop_zero {l : Li} (o : Octet) (synced : l.synced = true) : hear l o false = .discarded := by
  unfold hear
  dsimp only
  rw [if_neg (by simp [synced]), if_pos (by decide)]

theorem hear_overlong {l : Li} {o : Octet} (stop : Bool) (synced : l.synced = true)
    (header : 3 ≤ (l.assembly ++ [o]).length) (long : 120 < frameLength (l.assembly ++ [o])) :
    hear l o stop = .discarded := by
  cases stop with
  | false => exact hear_stop_zero o synced
  | true =>
    unfold hear
    dsimp only
    rw [if_neg (by simp [synced]), if_neg (by decide), if_neg (by omega), if_pos long]

theorem hear_crc_wrong {l : Li} {o : Octet} (stop : Bool) (synced : l.synced = true)
    (whole : (l.assembly ++ [o]).length = 5 + frameLength (l.assembly ++ [o]))
    (bad : frameCrcOk (l.assembly ++ [o]) ≠ true) : hear l o stop = .discarded := by
  cases stop with
  | false => exact hear_stop_zero o synced
  | true =>
    by_cases long : 120 < frameLength (l.assembly ++ [o])
    · exact hear_overlong true synced (by omega) long
    · unfold hear
      dsimp only
      rw [if_neg (by simp [synced]), if_neg (by decide), if_neg (by omega), if_neg long, if_neg (by omega),
        if_neg bad]

/-! ## The receive queue (R151) -/

theorem arriveFrame_room (f : Octets) {s : State} (room : s.li.rx.length < 16) :
    arriveFrame f s = { s with li := { s.li with assembly := [], rx := s.li.rx ++ [f] } } := if_pos room

theorem arriveFrame_full (f : Octets) {s : State} (full : 16 ≤ s.li.rx.length) :
    arriveFrame f s = raiseFlag .rxOverrun { s with li := { s.li with assembly := [] } } :=
  if_neg (Nat.not_lt.2 full)

theorem inert_received (f : Octets) (s : State) : Inert s
    { characterRead s with li := { (characterRead s).li with assembly := [], rx := s.li.rx ++ [f] } } :=
  ⟨rfl, rfl, rfl, rfl, rfl, rfl, rfl, id, id, rfl, rfl, rfl⟩

/-! ## The commands of the receiver -/

section Listening

variable {s : State} (held : s.sj.held = false) (idle : s.li.sending = none)
include held idle

/-- The character of a command of the receiver that meets its own condition, before the own send is due. -/
theorem onCharacter_heard {o : Octet} {stop : Bool} {h : Heard} (before : ∀ due, sendDue s = some due → s.now < due)
    (heard : hear s.li o stop = h) : onCharacter (receiving s && hear s.li o stop == h) o stop s =
      .next (closeEvent s (takeCharacter o stop s)) := by
  have ready : (receiving s && hear s.li o stop == h) = true := by
    rw [receiving_of_idle held idle, heard]
    exact beq_self_eq_true h
  rw [onCharacter_listening _ _ _ before, ready]
  rfl

theorem frameArrival_next {o : Octet} (before : ∀ due, sendDue s = some due → s.now < due)
    (heard : hear s.li o true = .arrived) : exec (.frameArrival o) s =
      .next (closeEvent s (arriveFrame (s.li.assembly ++ [o]) (characterRead s))) := by
  have taken : takeCharacter o true s = arriveFrame (s.li.assembly ++ [o]) (characterRead s) := by
    unfold takeCharacter
    rw [heard]
  rw [← taken]
  exact onCharacter_heard held idle before heard

theorem rxFrameDiscard_next {o : Octet} {stop : Bool} (before : ∀ due, sendDue s = some due → s.now < due)
    (heard : hear s.li o stop = .discarded) : exec (.rxFrameDiscard o stop) s =
      .next (closeEvent s (discardAssembly (characterRead s))) := by
  have taken : takeCharacter o stop s = discardAssembly (characterRead s) := by
    unfold takeCharacter
    rw [heard]
  rw [← taken]
  exact onCharacter_heard held idle before heard

theorem rxTruncation_next (part : s.li.assembly ≠ []) : exec .rxTruncation s =
    .next (closeEvent s (discardAssembly (reachTime (s.li.idleSince + 20 * s.bit) s))) := by
  have due : truncationDue s = some (s.li.idleSince + 20 * s.bit) := by
    unfold truncationDue
    rw [receiving_of_idle held idle, List.isEmpty_eq_false_iff.2 part]
    rfl
  change onTimer (truncationDue s) discardAssembly s = _
  rw [due]
  rfl

end Listening

/-- Settles O49, by what the character comes to (`hear`): a whole good frame is nothing that follows an event looks at,
and what follows a flag raised leaves the receiver alone (`closes_closeEvent`). -/
theorem framesArriveOrAreDiscarded : Obligations.FramesArriveOrAreDiscarded := by
  refine ⟨fun s o f hs held idle before synced octets fits whole check => ?_, fun s o stop held idle => ?_⟩
  · subst octets
    rw [frameArrival_next held idle before (hear_arrived synced fits whole ((frameCrcOk_iff _).2 check))]
    refine ⟨fun room => congrArg _ ?_, fun full => ⟨_, rfl, ?_⟩⟩
    · rw [arriveFrame_room (s := characterRead s) _ room]
      exact closeEvent_inert hs (inert_received _ s)
    · rw [arriveFrame_full (s := characterRead s) _ full]
      exact closes_closeEvent s _
  · refine ⟨fun synced before wrong => ?_,
      fun part => ⟨_, rxTruncation_next held idle part, closes_closeEvent s _⟩⟩
    have heard : hear s.li o stop = .discarded := by
      rcases wrong with rfl | ⟨header, long⟩ | ⟨_, whole, bad⟩
      · exact hear_stop_zero o synced
      · exact hear_overlong stop synced header long
      · exact hear_crc_wrong stop synced whole fun good => bad ((frameCrcOk_iff _).1 good)
    exact ⟨_, rxFrameDiscard_next held idle before heard, closes_closeEvent s _⟩

end Sys2Proof.Machine
end

section
/-! PROOFS. A receiver of the same bore reads back every bulletin as its sender laid it out (O60): first the fields of
one or two octets, then the frame, then the bodies kind by kind. -/

namespace Sys2Proof.Machine

/-! ## Octets (R138) -/

@[simp] theorem octetAt_cons_zero (o : Octet) (b : Octets) : octetAt (o :: b) 0 = o := rfl
@[simp] theorem octetAt_cons_succ (o : Octet) (b : Octets) (i : Nat) : octetAt (o :: b) (i + 1) = octetAt b i := rfl
@[simp] theorem natAt_cons_zero (o : Octet) (b : Octets) : natAt (o :: b) 0 = o.toNat := rfl
@[simp] theorem natAt_cons_succ (o : Octet) (b : Octets) (i : Nat) : natAt (o :: b) (i + 1) = natAt b i := rfl

theorem octet_toNat {n : Nat} (h : n < 256) : (octet n).toNat = n := Nat.mod_eq_of_lt h

/-- The two octets of a number, put together again. -/
@[simp] theorem octets16_joined (w : BitVec 16) : (w.extractLsb' 8 8 ++ w.extractLsb' 0 8 : BitVec 16) = w := by
  apply BitVec.eq_of_toNat_eq
  have bound := w.isLt
  rw [toNat_append_octet, BitVec.extractLsb'_toNat, BitVec.extractLsb'_toNat, Nat.shiftRight_eq_div_pow,
    Nat.shiftRight_eq_div_pow]
  omega

/-- The four octets of a number, put together again. -/
@[simp] theorem octets32_joined (w : BitVec 32) :
    (w.extractLsb' 24 8 ++ w.extractLsb' 16 8 ++ w.extractLsb' 8 8 ++ w.extractLsb' 0 8 : BitVec 32) = w := by
  apply BitVec.eq_of_toNat_eq
  have bound := w.isLt
  simp only [toNat_append_octet, BitVec.extractLsb'_toNat, Nat.shiftRight_eq_div_pow]
  omega

/-! ## The frame (R138, R139, R147) -/

section Frame

variable (source : Nat)

theorem headerAndBody_length (b : Body) : (headerAndBody source b).length = 3 + (bodyOctets b).length := by
  unfold headerAndBody
  rw [List.length_append, List.length_cons, List.length_cons, List.length_cons, List.length_nil]

theorem frameOctets_length (b : Body) : (frameOctets source b).length = 5 + (bodyOctets b).length := by
  unfold frameOctets octets16
  rw [List.length_append, headerAndBody_length]
  simp only [List.length_cons, List.length_nil]
  omega

theorem frameSource_sent (b : Body) (fits : source < 256) : frameSource (frameOctets source b) = source :=
  octet_toNat fits

theorem kindCode_le (b : Body) : kindCode b ≤ 6 := by cases b <;> simp [kindCode]

theorem natAt_frame_zero (b : Body) : natAt (frameOctets source b) 0 = kindCode b * 16 + 1 := by
  have bound := kindCode_le b
  exact octet_toNat (by omega)

theorem frameVersion_sent (b : Body) : frameVersion (frameOctets source b) = 1 := by
  unfold frameVersion
  rw [natAt_frame_zero]
  omega

theorem frameKind_sent (b : Body) : frameKind (frameOctets source b) = kindCode b := by
  unfold frameKind
  rw [natAt_frame_zero]
  omega

variable {b : Body} (short : (bodyOctets b).length < 256)
include short

theorem frameLength_sent : frameLength (frameOctets source b) = (bodyOctets b).length := octet_toNat short

theorem frameBody_sent : frameBody (frameOctets source b) = bodyOctets b := by
  unfold frameBody
  rw [frameLength_sent source short]
  exact List.take_left

/-- A frame passes its receiver's CRC check (R139). -/
theorem frameCrcOk_sent : frameCrcOk (frameOctets source b) = true := by
  rw [frameCrcOk_iff, frameLength_sent source short, ← headerAndBody_length source]
  unfold frameOctets
  rw [List.drop_left, List.take_left]

end Frame

/-- What Frame Dispatch is to take a bulletin for. -/
def kindOfBody : Body → FrameKind
  | .status _ _ _ => .status
  | .incident _ _ _ => .incident
  | .ending _ => .ending
  | .claim _ _ => .claim
  | .withdraw _ _ _ => .withdraw
  | .release _ _ _ => .release

theorem kindOf_sent (source : Nat) (b : Body) : kindOf (frameOctets source b) = kindOfBody b := by
  unfold kindOf
  rw [frameVersion_sent, frameKind_sent]
  cases b <;> rfl

theorem fixedLengthOk_sent (source : Nat) (b : Body) : fixedLengthOk (frameOctets source b) = true := by
  unfold fixedLengthOk
  rw [kindOf_sent]
  cases b <;> rfl

/-- The checks of R147 that every sent frame passes. -/
theorem classify_sent {count source : Nat} (b : Body) (bore : count < 256) (low : 1 ≤ source)
    (high : source ≤ count) : classify count (frameOctets source b) = kindOfBody b := by
  have heard : sourceOk count (frameOctets source b) = true := by
    unfold sourceOk
    rw [frameSource_sent source b (by omega)]
    simp [low, high]
  unfold classify
  rw [heard, fixedLengthOk_sent, kindOf_sent]
  rfl

/-! ## Ids and readings (R138, R141) -/

/-- An id of the bore passes the range checks of R14 and R114. -/
theorem readId_fits {count : Nat} {id : Id} (fits : idFits count id = true) :
    readId count id.origin id.seq.toNat = some id := by
  simp only [idFits, Bool.and_eq_true, decide_eq_true_eq] at fits
  obtain ⟨low, high⟩ := fits
  have seq := id.seq.isLt
  unfold readId
  rw [if_pos ⟨low, high, by omega⟩, BitVec.ofNat_toNat, BitVec.setWidth_eq]

/-- A bore of 120 stations leaves an origin in one octet (R1). -/
theorem origin_toNat {count : Nat} {id : Id} (bore : count < 256) (fits : idFits count id = true) :
    (octet id.origin).toNat = id.origin := by
  simp only [idFits, Bool.and_eq_true, decide_eq_true_eq] at fits
  exact octet_toNat (by omega)

theorem seq_toNat (id : Id) : (octet id.seq.toNat).toNat = id.seq.toNat :=
  octet_toNat (Nat.lt_trans id.seq.isLt (by decide))

/-- An id in the two octets a bulletin gives it. -/
theorem readId_sent {count : Nat} {id : Id} (bore : count < 256) (fits : idFits count id = true) :
    readId count (octet id.origin).toNat (octet id.seq.toNat).toNat = some id := by
  rw [origin_toNat bore fits, seq_toNat, readId_fits fits]

/-- A reading in the two octets of its field, with 0x8000 free for INVALID (R140). -/
theorem readReading_sent {b : Octets} {i : Nat} {r : Option Int} {low high : Int}
    (field : (octetAt b i ++ octetAt b (i + 1) : BitVec 16) = readingWord r)
    (within : readingWithin low high r = true) (least : -32768 < low) (most : high < 32768) : readReading b i = r := by
  unfold readReading signed16
  rw [field]
  cases r with
  | none => rfl
  | some v =>
    simp only [readingWithin, Bool.and_eq_true, decide_eq_true_eq] at within
    obtain ⟨above, below⟩ := within
    have value : (readingWord (some v)).toInt = v := BitVec.toInt_ofInt_eq_self (by decide) (by omega) (by omega)
    have valid : readingWord (some v) ≠ 0x8000#16 := fun invalid => by
      rw [invalid] at value
      have least16 : (0x8000#16).toInt = -32768 := by decide
      omega
    rw [if_neg valid, value]

/-! ## The claim kinds and END (R142) -/

theorem sect_toNat {sect : Nat} (latched : sect < 16) : (octet sect).toNat = sect := octet_toNat (by omega)

theorem slotOctet_read (k : SlotNo) : readSlot (slotOctet k).toNat = some k := by cases k <;> rfl

theorem readClaim_sent {count sect : Nat} {c : Claim} (bore : count < 256) (fits : claimFits count c = true) :
    readClaim count (claimOctets sect c) = some c := by
  have good := fits
  simp only [claimFits, Bool.and_eq_true, decide_eq_true_eq] at fits
  obtain ⟨⟨clsBound, rankBound⟩, -⟩ := fits
  have cls : (octet c.key.cls).toNat = c.key.cls := octet_toNat (by omega)
  have rank : (octet c.key.rank).toNat = c.key.rank := octet_toNat (by omega)
  unfold readClaim claimOctets octets32
  simp only [List.cons_append, List.nil_append, natAt_cons_zero, natAt_cons_succ, octetAt_cons_zero,
    octetAt_cons_succ, slotOctet_read, cls, rank, octets32_joined]
  exact if_pos good

/-! ## INCIDENT (R141) -/

theorem directionOctet_direction (c : Content) : (directionOctet c).getLsbD 0 = (c.dir == .towardB) := by
  unfold directionOctet
  cases c.dir <;> cases c.cmd.isSome <;> rfl

theorem directionOctet_commanded (c : Content) : (directionOctet c).getLsbD 1 = c.cmd.isSome := by
  unfold directionOctet
  cases c.dir <;> cases c.cmd.isSome <;> rfl

theorem readContent_sent {count : Nat} {c : Content} (id : Id) (y : Option Id) (bore : count < 256)
    (fits : contentFits count c = true) : readContent count (incidentOctets id y c) = some c := by
  obtain ⟨lo, hi, dir, rev, cmd⟩ := c
  simp only [contentFits, Bool.and_eq_true, decide_eq_true_eq] at fits
  obtain ⟨⟨⟨⟨first, span⟩, last⟩, revision⟩, commander⟩ := fits
  have loOctet : (octet lo).toNat = lo := octet_toNat (by omega)
  have hiOctet : (octet hi).toNat = hi := octet_toNat (by omega)
  have revOctet : (octet rev).toNat = rev := octet_toNat (by omega)
  have towards : (if dir == .towardB then Direction.towardB else .towardA) = dir := by cases dir <;> rfl
  unfold readContent incidentOctets
  simp only [natAt_cons_zero, natAt_cons_succ, octetAt_cons_zero, octetAt_cons_succ, directionOctet_direction,
    directionOctet_commanded, towards, loOctet, hiOctet, revOctet]
  cases cmd with
  | none =>
    have computed : rev = 0 := by simpa using commander
    have zero : (octet 0).toNat = 0 := rfl
    simp [first, span, last, computed, zero]
  | some p =>
    simp only [Bool.and_eq_true, decide_eq_true_eq] at commander
    obtain ⟨station, inBore⟩ := commander
    have cmdOctet : (octet p).toNat = p := octet_toNat (by omega)
    simp [first, span, last, revision, cmdOctet, inBore, Nat.ne_of_gt station]

/-- The state and the seq share the second octet (R141). -/
theorem natAt_incidentOctets_one (id : Id) (y : Option Id) (c : Content) :
    natAt (incidentOctets id y c) 1 = (if y.isSome then 32 else 16) + id.seq.toNat := by
  have seq := id.seq.isLt
  refine octet_toNat ?_
  split <;> omega

theorem readIncident_sent_active {count : Nat} {id : Id} {c : Content} (bore : count < 256)
    (named : idFits count id = true) (fits : contentFits count c = true) :
    readIncident count (incidentOctets id none c) = some (.active id c) := by
  have bound := id.seq.isLt
  have origin : natAt (incidentOctets id none c) 0 = id.origin := origin_toNat bore named
  have second : natAt (incidentOctets id none c) 1 = 16 + id.seq.toNat := natAt_incidentOctets_one id none c
  have seq : (16 + id.seq.toNat) % 16 = id.seq.toNat := by omega
  have state : (16 + id.seq.toNat) / 16 = 1 := by omega
  unfold readIncident
  rw [origin, second, readContent_sent id none bore fits, seq, state, readId_fits named]
  rfl

theorem readIncident_sent_absorbed {count : Nat} {id z : Id} {c : Content} (bore : count < 256)
    (named : idFits count id = true) (fits : contentFits count c = true) (survivor : idFits count z = true)
    (lower : keyLt z id = true) : readIncident count (incidentOctets id (some z) c) = some (.absorbed id z c) := by
  have bound := id.seq.isLt
  have origin : natAt (incidentOctets id (some z) c) 0 = id.origin := origin_toNat bore named
  have second : natAt (incidentOctets id (some z) c) 1 = 32 + id.seq.toNat := natAt_incidentOctets_one id (some z) c
  have seq : (32 + id.seq.toNat) % 16 = id.seq.toNat := by omega
  have state : (32 + id.seq.toNat) / 16 = 2 := by omega
  have read : readId count (natAt (incidentOctets id (some z) c) 7) (natAt (incidentOctets id (some z) c) 8) =
      some z := readId_sent bore survivor
  unfold readIncident
  rw [origin, second, readContent_sent id (some z) bore fits, seq, state, readId_fits named]
  dsimp only
  rw [read]
  exact if_pos lower

/-! ## STATUS (R140) -/

/-- The octet that holds the two flags and the entry count. -/
theorem flagOctet_fields : ∀ gov pace : Bool, ∀ n : Fin 7,
    let o := octet ((if gov then 128 + (if pace then 64 else 0) else 0) + n)
    o.getLsbD 7 = gov ∧ o.getLsbD 6 = (gov && pace) ∧ o.toNat % 16 = n := by decide

theorem statusFlags_fields {p : StatusPart} (few : p.entries.length ≤ 6) :
    (statusFlags p).getLsbD 7 = p.gov.isSome ∧ (statusFlags p).getLsbD 6 = p.gov.any GovBlock.pace ∧
      (statusFlags p).toNat % 16 = p.entries.length := by
  unfold statusFlags
  cases p.gov with
  | none => exact flagOctet_fields false false ⟨p.entries.length, by omega⟩
  | some g => exact flagOctet_fields true g.pace ⟨p.entries.length, by omega⟩

theorem entryOctets_length (es : List Entry) : (es.map entryOctets).flatten.length = 3 * es.length := by
  induction es with
  | nil => rfl
  | cons e es ih =>
    rw [List.map_cons, List.flatten_cons, List.length_append, ih, List.length_cons]
    change 3 + _ = _
    omega

theorem entryStateOctet_read (st : EntryState) : readEntryState (entryStateOctet st).toNat = some st := by
  cases st <;> rfl

theorem readEntries_sent {count : Nat} {es : List Entry} (bore : count < 256)
    (fits : ∀ e ∈ es, idFits count e.id = true) :
    readEntries count es.length (es.map entryOctets).flatten = some es := by
  induction es with
  | nil => rfl
  | cons e es ih =>
    have rest := ih fun x hx => fits x (List.mem_cons_of_mem _ hx)
    have head := readId_sent bore (fits e List.mem_cons_self)
    change readEntries count (es.length + 1) (octet e.id.origin :: octet e.id.seq.toNat :: entryStateOctet e.state ::
      (es.map entryOctets).flatten) = _
    unfold readEntries
    simp only [natAt_cons_zero, natAt_cons_succ, List.drop_succ_cons, List.drop_zero, head, entryStateOctet_read, rest]

section Status

variable (serial : BitVec 32) (p : StatusPart) (h : BitVec 8)

theorem statusOctets_length : (statusOctets serial p h).length =
    (if p.gov.isSome then 20 else 13) + 3 * p.entries.length := by
  unfold statusOctets
  rw [List.length_append, entryOctets_length]
  cases p.gov <;> rfl

theorem statusSerial_sent : statusSerial (statusOctets serial p h) = serial := octets32_joined serial

variable {p} (few : p.entries.length ≤ 6)
include few

theorem statusGovFlag_sent : statusGovFlag (statusOctets serial p h) = p.gov.isSome := (statusFlags_fields few).1

theorem statusPaceFlag_sent : statusPaceFlag (statusOctets serial p h) = p.gov.any GovBlock.pace :=
  (statusFlags_fields few).2.1

theorem statusEntryCount_sent : statusEntryCount (statusOctets serial p h) = p.entries.length :=
  (statusFlags_fields few).2.2

theorem statusEntriesAt_sent : statusEntriesAt (statusOctets serial p h) = if p.gov.isSome then 20 else 13 := by
  unfold statusEntriesAt
  rw [statusGovFlag_sent serial h few]

theorem statusLengthOk_sent : statusLengthOk (statusOctets serial p h) = true := by
  unfold statusLengthOk
  rw [statusEntriesAt_sent serial h few, statusEntryCount_sent serial h few, statusOctets_length, beq_self_eq_true,
    Bool.and_true, decide_eq_true_eq]
  split <;> omega

theorem statusOctets_entries : (statusOctets serial p h).drop (statusEntriesAt (statusOctets serial p h)) =
    (p.entries.map entryOctets).flatten := by
  rw [statusEntriesAt_sent serial h few]
  unfold statusOctets
  cases p.gov <;> rfl

theorem readGov_sent {count : Nat} (bore : count < 256) (fits : ∀ g, p.gov = some g → govFits count g = true) :
    readGov count (statusOctets serial p h) = some p.gov := by
  unfold readGov
  rw [statusGovFlag_sent serial h few, statusPaceFlag_sent serial h few]
  obtain ⟨view, gov, entries⟩ := p
  cases gov with
  | none => rfl
  | some g =>
    have good := fits g rfl
    simp only [govFits, Bool.and_eq_true, decide_eq_true_eq] at good
    obtain ⟨named, small⟩ := good
    have id : readId count (natAt (statusOctets serial ⟨view, some g, entries⟩ h) 13)
        (natAt (statusOctets serial ⟨view, some g, entries⟩ h) 14) = some g.id := readId_sent bore named
    have digest : (octetAt (statusOctets serial ⟨view, some g, entries⟩ h) 15 ++
        octetAt (statusOctets serial ⟨view, some g, entries⟩ h) 16 : BitVec 16) = g.digest :=
      octets16_joined g.digest
    have demand : (octetAt (statusOctets serial ⟨view, some g, entries⟩ h) 17 ++
        octetAt (statusOctets serial ⟨view, some g, entries⟩ h) 18 : BitVec 16).toNat = g.demand :=
      (congrArg BitVec.toNat (octets16_joined (BitVec.ofNat 16 g.demand))).trans (Nat.mod_eq_of_lt small)
    rw [id, digest, demand]
    rfl

end Status

theorem readMode_sent {m : Mode} (sent : m = .quiet ∨ m = .incident ∨ m = .maintenance) :
    readMode (modeOctet m).toNat = some m := by rcases sent with rfl | rfl | rfl <;> rfl

theorem viewFits_iff (v : View) : viewFits v = true ↔
    (v.mode = .quiet ∨ v.mode = .incident ∨ v.mode = .maintenance) ∧
    v.fans ≤ 4 ∧ v.runA + v.runB ≤ v.fans ∧ (v.mode = .maintenance → v.fans = 0) ∧
    readingWithin (-40) 1000 v.temp = true ∧ readingWithin (-200) 200 v.vel = true := by
  simp [viewFits, and_assoc, or_assoc, imp_iff_not_or]

/-- The planner's fields pass the checks of R114, a governing block standing in INCIDENT and none in QUIET. -/
theorem readView_sent (serial : BitVec 32) {p : StatusPart} (h : BitVec 8) (few : p.entries.length ≤ 6)
    (fits : viewFits p.view = true) (governed : p.view.mode = .incident → p.gov.isSome = true)
    (ungoverned : p.view.mode = .quiet → p.gov.isSome = false) :
    readView (statusOctets serial p h) = some p.view := by
  obtain ⟨sent, fanBound, runBound, maintained, tempRange, velRange⟩ := (viewFits_iff p.view).1 fits
  have mode : readMode (natAt (statusOctets serial p h) 4) = some p.view.mode := readMode_sent sent
  have fans : natAt (statusOctets serial p h) 5 = p.view.fans := octet_toNat (by omega)
  have runs : natAt (statusOctets serial p h) 6 = p.view.runA * 16 + p.view.runB := octet_toNat (by omega)
  have runA : (p.view.runA * 16 + p.view.runB) / 16 = p.view.runA := by omega
  have runB : (p.view.runA * 16 + p.view.runB) % 16 = p.view.runB := by omega
  have temp : readReading (statusOctets serial p h) 7 = p.view.temp :=
    readReading_sent (octets16_joined _) tempRange (by decide) (by decide)
  have vel : readReading (statusOctets serial p h) 9 = p.view.vel :=
    readReading_sent (octets16_joined _) velRange (by decide) (by decide)
  unfold readView
  rw [mode, statusGovFlag_sent serial h few]
  simp only [fans, runs, runA, runB, temp, vel]
  refine if_pos ?_
  simp only [Bool.and_eq_true, Bool.or_eq_true, Bool.not_eq_true', Bool.not_eq_false', Bool.and_eq_false_iff,
    decide_eq_true_eq, bne_iff_ne, beq_iff_eq, beq_eq_false_iff_ne]
  exact ⟨⟨⟨⟨⟨⟨fanBound, runBound⟩, Decidable.not_or_of_imp maintained⟩, tempRange⟩, velRange⟩,
    (Decidable.not_or_of_imp ungoverned).symm⟩, (Decidable.not_or_of_imp governed).symm⟩

theorem statusFits_iff (count : Nat) (p : StatusPart) : statusFits count p = true ↔
    viewFits p.view = true ∧ p.entries.length ≤ 6 ∧ (∀ e ∈ p.entries, idFits count e.id = true) ∧
    distinctIds p.entries = true ∧ govListed p.gov p.entries = true ∧
    (p.view.mode = .incident → p.gov.isSome = true) ∧ (p.view.mode = .quiet → p.gov.isSome = false) ∧
    (∀ g, p.gov = some g → govFits count g = true) := by
  unfold statusFits
  cases p.gov <;> simp [and_assoc]

theorem readStatus_sent {count : Nat} {serial : BitVec 32} {p : StatusPart} (h : BitVec 8) (bore : count < 256)
    (named : serial ≠ 0#32) (fits : statusFits count p = true) :
    readStatus count (statusOctets serial p h) = some p := by
  obtain ⟨viewed, few, ids, distinct, listed, governed, ungoverned, govs⟩ := (statusFits_iff count p).1 fits
  have checks : (statusLengthOk (statusOctets serial p h) &&
      decide (statusEntryCount (statusOctets serial p h) ≤ 6) &&
      statusSerial (statusOctets serial p h) != 0#32) = true := by
    rw [statusLengthOk_sent serial h few, statusEntryCount_sent serial h few, statusSerial_sent]
    simp [few, named]
  unfold readStatus
  rw [if_pos checks, readView_sent serial h few viewed governed ungoverned, readGov_sent serial h few bore govs,
    statusEntryCount_sent serial h few, statusOctets_entries serial h few, readEntries_sent bore ids]
  dsimp only
  rw [distinct, listed]
  rfl

/-! ## Every kind -/

/-- The longest body: a STATUS with a governing block and six entries. -/
theorem statusOctets_short {count : Nat} (serial : BitVec 32) {p : StatusPart} (h : BitVec 8)
    (fits : statusFits count p = true) : (statusOctets serial p h).length ≤ 38 := by
  obtain ⟨-, few, -⟩ := (statusFits_iff count p).1 fits
  rw [statusOctets_length]
  split <;> omega

/-- A frame with a body no longer than a STATUS's is taken apart as it was put together. -/
theorem frame_sent {count source : Nat} {b : Body} (bore : count ≤ 120) (low : 1 ≤ source) (high : source ≤ count)
    (short : (bodyOctets b).length ≤ 38) : frameCrcOk (frameOctets source b) = true ∧
      frameSource (frameOctets source b) = source ∧ frameBody (frameOctets source b) = bodyOctets b ∧
      (frameOctets source b).length ≤ 43 ∧ classify count (frameOctets source b) = kindOfBody b := by
  refine ⟨frameCrcOk_sent source (by omega), frameSource_sent source b (by omega),
    frameBody_sent source (by omega), ?_, classify_sent b (by omega) low high⟩
  rw [frameOctets_length]
  omega

/-- Settles O60: the frame is taken apart once for every kind (`frame_sent`), and each body by its own reader. -/
theorem bulletinsReadBackAsSent : Obligations.BulletinsReadBackAsSent := by
  intro count source b two bore low high fits
  have narrow : count < 256 := by omega
  have short : (bodyOctets b).length ≤ 38 := by
    cases b with
    | status serial p h => exact statusOctets_short serial h fits.2
    | incident | ending | claim | withdraw | release => simp [bodyOctets, incidentOctets, claimOctets, octets32]
  obtain ⟨check, sender, body, length, kind⟩ := frame_sent bore low high short
  refine ⟨check, sender, body, length, ?_⟩
  rw [body, kind]
  cases b with
  | status serial p h => exact ⟨rfl, readStatus_sent h narrow fits.1 fits.2, statusSerial_sent serial p h, rfl⟩
  | incident id y c =>
    obtain ⟨named, content, older⟩ := fits
    refine ⟨rfl, ?_⟩
    cases y with
    | none => exact readIncident_sent_active narrow named content
    | some z =>
      obtain ⟨survivor, lower⟩ := older z rfl
      exact readIncident_sent_absorbed narrow named content survivor lower
  | ending id => exact ⟨rfl, readId_sent narrow fits⟩
  | claim sect c => exact ⟨rfl, sect_toNat fits.1, readClaim_sent narrow fits.2⟩
  | withdraw sect k n | release sect k n => exact ⟨rfl, sect_toNat fits, slotOctet_read k, rfl⟩

end Sys2Proof.Machine
end

section
/-! PROOFS. The receiver synchronises on an idle line and takes the characters of other stations, but for one in the bit
time of the own start bit, which starts the own send (O48). -/

namespace Sys2Proof.Machine

/-! ## A character that completes nothing (R150) -/

theorem hear_unsynced {l : Li} (o : Octet) (stop : Bool) (unsynced : l.synced = false) : hear l o stop = .ignored := by
  unfold hear
  rw [if_pos (by simp [unsynced])]

/-- The frame still lacks octets: its length octet is still to come, or octets after it are. -/
theorem hear_assembled {l : Li} {o : Octet} (synced : l.synced = true)
    (lacks : l.assembly.length < 2 ∨ (frameLength (l.assembly ++ [o]) ≤ 120 ∧
      l.assembly.length + 1 < 5 + frameLength (l.assembly ++ [o]))) : hear l o true = .assembled := by
  have grown : (l.assembly ++ [o]).length = l.assembly.length + 1 := by simp
  unfold hear
  dsimp only
  rw [if_neg (by simp [synced]), if_neg (by decide)]
  by_cases header : (l.assembly ++ [o]).length < 3
  · rw [if_pos header]
  · obtain short | ⟨fits, more⟩ := lacks
    · omega
    · rw [if_neg header, if_neg (by omega), if_pos (by omega)]

/-! ## The commands of a receiver that listens -/

/-- The closing stages look neither at the clock nor at the line. -/
theorem inert_line (s : State) (t : Time) (l : Li) : Inert s { s with now := t, li := l } :=
  ⟨rfl, rfl, rfl, rfl, rfl, rfl, rfl, id, id, rfl, rfl, rfl⟩

section Listening

variable {s : State} (hs : Settled s) (held : s.sj.held = false) (idle : s.li.sending = none)
include hs held idle

theorem receiverSync_next (unsynced : s.li.synced = false) : exec .receiverSync s =
    .next { s with now := max s.now (s.li.idleSince + 16 * s.bit), li := { s.li with synced := true } } := by
  have due : syncDue s = some (s.li.idleSince + 16 * s.bit) := by
    unfold syncDue
    rw [receiving_of_idle held idle, unsynced]
    rfl
  change onTimer (syncDue s) (fun s => { s with li := { s.li with synced := true } }) s = _
  exact onTimer_eq due hs rfl (inert_line s _ _)

/-- A character that moves only the clock and the line, before the own send is due. -/
theorem characterReceived_next {o : Octet} {stop : Bool} {t : Time} {l : Li}
    (before : ∀ due, sendDue s = some due → s.now < due)
    (taken : takeCharacter o stop s = { s with now := t, li := l }) :
    exec (.characterReceived o stop) s = .next { s with now := t, li := l } := by
  change onCharacter (receiving s) o stop s = _
  rw [onCharacter_listening _ _ _ before, ← taken]
  exact onReady_inert (receiving_of_idle held idle) hs (taken ▸ inert_line s t l)

end Listening

/-! ## A character in the bit time of the own start bit (R154) -/

/-- Whether or not it cuts a frame in assembly off, a start leaves the line as `sendStarted` has it, at the same
moment. -/
theorem startSend_line {s : State} {x : TxFrame} {rest : List TxFrame} (hq : s.li.tx = x :: rest) :
    (startSend s).li = (sendStarted x rest s).li ∧ (startSend s).now = s.now := by
  by_cases clear : s.li.assembly = []
  · rw [startSend_clear hq clear]
    exact ⟨rfl, rfl⟩
  · rw [startSend_cuts hq clear]
    exact ⟨rfl, rfl⟩

/-- A send that is due starts now, and the queue of received frames and the idle count stand. -/
theorem sendStart_starts {s : State} {x : TxFrame} {rest : List TxFrame} {due : Time} (hq : s.li.tx = x :: rest)
    (hd : sendDue s = some due) (reached : due ≤ s.now) : ∃ u, exec .sendStart s = .next u ∧ u.now = s.now ∧
      u.li.sending = some ⟨x, s.now⟩ ∧ u.li.rx = s.li.rx ∧ u.li.assembly = [] ∧ u.li.idleSince = s.li.idleSince := by
  have next : exec .sendStart s = .next (closeEvent s (startSend s)) := by
    change onTimer (sendDue s) startSend s = _
    have here : reachTime due s = s := by
      unfold reachTime
      rw [Nat.max_eq_left reached]
    rw [hd]
    exact congrArg (fun z => Host.Outcome.next (closeEvent s (startSend z))) here
  obtain ⟨line, now⟩ := startSend_line hq
  have closes := closes_closeEvent s (startSend s)
  refine ⟨_, next, closes.now.trans now, closes.sending.trans ?_, closes.rx.trans ?_, closes.assembly.trans ?_,
    closes.idle.trans ?_⟩ <;> rw [line] <;> rfl

/-- Settles O48: a sync and a character that completes nothing are nothing that follows an event looks at; a character in
the bit time of the own start bit is that send's start (`onCharacter_sends`). -/
theorem receiverTakesCharacters : Obligations.ReceiverTakesCharacters := by
  refine ⟨fun s hs held idle unsynced => receiverSync_next hs held idle unsynced,
    fun s o stop hs held idle before => ⟨fun unsynced => ?_, fun synced good lacks => ?_⟩,
    fun s i o stop due x rest hq hd reached character => ?_⟩
  · refine characterReceived_next hs held idle before ?_
    unfold takeCharacter
    rw [hear_unsynced o stop unsynced]
    rfl
  · subst good
    refine characterReceived_next hs held idle before ?_
    unfold takeCharacter
    rw [hear_assembled synced lacks]
    rfl
  · have sends : exec i s = exec .sendStart s := by
      rcases character with rfl | rfl | rfl <;> exact onCharacter_sends _ _ _ hd reached
    rw [sends]
    exact ⟨rfl, sendStart_starts hq hd reached⟩

end Sys2Proof.Machine
end

section
/-! PROOFS. What no command touches (R165, R167), and that the state right after power-on meets every premise of the
run-wide statements (R168). -/

namespace Sys2Proof.Machine

/-! ## What no command touches -/

/-- Settles O58: an event keeps its ground (`ground_exec`); a reset and a pin replace none of it; a release latches
new straps and leaves the rest. -/
theorem commandsKeepStrapsSerialAndQueue : Obligations.CommandsKeepStrapsSerialAndQueue := by
  intro i s u h
  have stands (g : Ground s u) : u.sj.serial = s.sj.serial ∧
      ((∀ w, i ≠ .resetRelease w) → u.sj.straps = s.sj.straps) ∧ s.now ≤ u.now ∧ u.pending = s.pending :=
    ⟨g.serial, fun _ => g.straps, g.now, g.pending⟩
  cases exec_answers h with
  | powerOn => exact ⟨rfl, fun _ => rfl, Nat.le_refl _, rfl⟩
  | external => exact ⟨rfl, fun _ => rfl, Nat.le_refl _, rfl⟩
  | release w => exact ⟨rfl, fun other => absurd rfl (other w), Nat.le_refl _, rfl⟩
  | level n v => exact stands (ground_setSu _ s)
  | pin k n v p => exact stands (.of rfl rfl rfl)
  | idle => exact stands (.refl s)
  | join => exact stands (ground_exec rfl h)
  | event _ _ _ plain => exact stands (ground_exec plain h)

/-! ## The state right after power-on -/

/-- A power-on reset of the part just powered on leaves it as it is (R168). -/
theorem holdReset_reset : holdReset false State.reset = State.reset := rfl

/-- No slot a reset holds is STARTING (R87). -/
theorem startsGranted_reset : StartsGranted State.reset :=
  .of_none fun k => by rw [← holdReset_reset, holdReset_slot]; exact slotHeld_starting _ _

theorem bounded_reset : Bounded State.reset :=
  ⟨Nat.zero_le _, .nil, .nil, Nat.zero_le _, Nat.zero_le _, Nat.zero_le _, List.length_replicate⟩

theorem chainsEnd_reset : ChainsEnd State.reset := fun _ held => nomatch held

theorem queueForm_reset : QueueForm State.reset := ⟨.nil, Nat.zero_le _, .nil⟩

theorem viewForm_reset : ViewForm State.reset := ⟨.nil, fun _ heard => (nomatch heard), .nil⟩

/-- With no own claim, and no frame that waits or is being sent, nothing is asked of the claim-kind frames (R106). -/
theorem claimFrames_reset : ClaimFrames State.reset := (claimFrames_iff _).2 (.idle _)

/-- Settles O50: the part is held in JOINING with no own claim, so nothing is left to follow (`settled_of_resting`);
the mode is not CONFIG_FAULT, both command lamps are dark, and every list is empty but the history. -/
theorem resetStateIsSound : Obligations.ResetStateIsSound :=
  ⟨settled_of_resting (.inl rfl) rfl, heldInReset_holdReset false State.reset, startsGranted_reset,
    fun fault => (nomatch fault), bounded_reset, .inl rfl, chainsEnd_reset, queueForm_reset, viewForm_reset,
    claimFrames_reset⟩

end Sys2Proof.Machine
end

section
/-! PROOFS. What one step is: the command at the front of the queue (O1), or on an empty queue the earliest event that is
due, or a microsecond (O2). -/

namespace Sys2Proof.Machine

/-! ## The step, by the queue -/

theorem step_of_waiting {c : Instr} {rest : List Instr} {s : State} (h : s.pending = c :: rest) :
    step s = exec c { s with pending := rest } := by
  unfold step
  rw [h]

theorem step_of_no_command {s : State} (h : s.pending = []) : step s = idle s := by
  unfold step
  rw [h]

theorem idle_of_due {c : Instr} {s : State} (h : dueCommand s = some c) : idle s = exec c s := by
  unfold idle
  rw [h]

theorem idle_of_none_due {s : State} (h : dueCommand s = none) : idle s = .next (clockTick s) := by
  unfold idle
  rw [h]

/-! ## The event that is due (log 1) -/

/-- At its own moment an event is due already. -/
theorem dueCommand_of_reached {s : State} {d : Due} (first : earliest (allDues s) = some d)
    (reached : d.time ≤ s.now) : dueCommand s = some d.cmd := by
  unfold dueCommand
  rw [first]
  exact if_pos reached

/-- It covers a part with no timer running. -/
theorem dueCommand_of_ahead {s : State} (ahead : ∀ d, earliest (allDues s) = some d → s.now < d.time) :
    dueCommand s = none := by
  unfold dueCommand
  cases first : earliest (allDues s) with
  | none => rfl
  | some d => exact if_neg (Nat.not_le.mpr (ahead d first))

/-! ## The two statements -/

/-- Settles O1. -/
theorem stepRunsTheQueueFront : Obligations.StepRunsTheQueueFront :=
  fun _ _ _ waiting => step_of_waiting waiting

/-- Settles O2: an empty queue leaves the step to the event that is due, and whether one is due is whether the clock
has reached the earliest deadline. -/
theorem idleStepRunsTheDueEventOrTicks : Obligations.IdleStepRunsTheDueEventOrTicks := by
  intro s empty
  constructor
  · intro d first reached
    calc step s = idle s := step_of_no_command empty
      _ = exec d.cmd s := idle_of_due (dueCommand_of_reached first reached)
  · intro ahead
    calc step s = idle s := step_of_no_command empty
      _ = .next (clockTick s) := idle_of_none_due (dueCommand_of_ahead ahead)

end Sys2Proof.Machine
end
